-- ==== Sys2Proof/Word.lean ====
section
/-! DEFINITION. Word types of the RGFX tile codec: the byte, the 32-bit command word, the colour. -/

namespace Sys2Proof

/-- A byte: an element of IN and TILE and one channel of a colour (R11, R50). -/
abbrev Byte := BitVec 8

/-- The 32-bit command word CW32 (R80). -/
abbrev CmdWord := BitVec 32

/-- A colour is a sequence of channel bytes (R11, R60). -/
abbrev Colour := List Byte

end Sys2Proof
end

