-- ==== Sys2Proof/Config.lean ====
section
/-! DEFINITION. What an implementation fixes: the capacities and the format names that R8 leaves open. -/

namespace Sys2Proof

/-- The OPEN parameters of R8, as data the model takes as an argument (State.params holds them and nothing
writes them, so a statement about every state is one about every choice of them). A capacity `none` is no bound.
DESIGN CHOICE (log 10). -/
structure Params where
  /-- MAX_BYTES: the largest byte stream of SHEETDEC and the largest numBytes of IMGHEIGHT. -/
  maxBytes : Option Nat
  /-- MAX_ELEMS: the largest grid, pixel sequence or index sequence. -/
  maxElems : Option Nat
  /-- PAL_CAP: the largest palette. -/
  palCap : Option Nat
  /-- FORMAT_NAMES[0] (R214). -/
  namePlanar : String
  /-- FORMAT_NAMES[1] (R214). -/
  nameInterwined : String
  /-- FORMAT_NAMES[2] (R214). -/
  nameGba : String
deriving DecidableEq, Repr

/-- The spec's choice of the parameters: capacities without bound (R8, D18, D19), the default names (R214). -/
def Params.default : Params where
  maxBytes := none
  maxElems := none
  palCap := none
  namePlanar := "planar"
  nameInterwined := "interwined"
  nameGba := "gba"

end Sys2Proof
end

