-- ==== Sys2Proof/Syntax.lean ====
section
/-! DEFINITION. The commands, the values of their fields, and the operand records a host presents with them. -/

namespace Sys2Proof

/-- The tile formats, "a closed enumeration" (R1, R7, R83). -/
inductive Format where
  | planar | interwined | gba
deriving DecidableEq, Repr

/-- The four values of the FMT field (R83). The value 3 names no format but decodes. -/
inductive FmtCode where
  | planar | interwined | gba | reserved
deriving DecidableEq, Repr

/-- The four values of the CH field (R85): 1, 3 or 4 channels, and the reserved value 3. -/
inductive ChCode where
  | one | three | four | reserved
deriving DecidableEq, Repr

/-- The four values of the WW field (R86). -/
inductive WidthCode where
  | w8 | w16 | w32 | w64
deriving DecidableEq, Repr

/-- One constructor per row of the opcode map (R87). A command holds exactly the command-word fields it uses. The BPP
field holds the bit depth itself (R84), a natural number that WellFormed bounds by the field's 4 bits. -/
inductive Instr where
  | getbits (ww : WidthCode)
  | setbits (ww : WidthCode)
  | getbit (ww : WidthCode)
  | setbit (ww : WidthCode)
  | pixdec (fmt : FmtCode) (bpp : Nat)
  | pixenc (fmt : FmtCode) (bpp : Nat)
  | rowdec (fmt : FmtCode) (bpp : Nat)
  | rowenc (fmt : FmtCode) (bpp : Nat)
  | tiledec (fmt : FmtCode) (bpp : Nat)
  | tileenc (fmt : FmtCode) (bpp : Nat)
  | sheetdec (fmt : FmtCode) (bpp : Nat)
  | sheetenc (fmt : FmtCode) (bpp : Nat)
  | matchPix
  | applyPal
  | graypal (bpp : Nat) (ch : ChCode)
  | imgheight (bpp : Nat)
  | cfgcheck (fmt : FmtCode) (bpp : Nat)
  | fmtlookup
  | fmtname (fmt : FmtCode)
  | bpplist (fmt : FmtCode)
deriving DecidableEq, Repr

/-- The twenty operations, without their fields: what an assigned OPC value names (R87). -/
inductive Mnemonic where
  | getbits | setbits | getbit | setbit
  | pixdec | pixenc | rowdec | rowenc | tiledec | tileenc
  | sheetdec | sheetenc
  | matchPix | applyPal | graypal
  | imgheight
  | cfgcheck | fmtlookup | fmtname | bpplist
deriving DecidableEq, Repr

/-- A palette operand as presented: a channel count and entries. R180 says which are palettes (`Palette.wf`). -/
structure Palette where
  channels : Nat
  entries : List Colour
deriving DecidableEq, Repr

/-- An operand record as presented, one constructor per set of fields of R89. Scalars are natural numbers and
buffers are sequences (R50). `nameSurplus` is a record with a name and at least one field more: it is no command's,
but FMTLOOKUP checks its name before its shape (R227). `other` stands for every further record whose set of fields is no
command's (a missing or a surplus field, R90; log 22). -/
inductive Record where
  | empty
  | wordStartN (word start n : Nat)
  | wordStartNValue (word start n value : Nat)
  | wordBit (word bit : Nat)
  | wordBitB (word bit b : Nat)
  | tileYX (tile : List Byte) (y x : Nat)
  | tileYXV (tile : List Byte) (y x v : Nat)
  | tileY (tile : List Byte) (y : Nat)
  | row (row : List Nat)
  | tile (tile : List Byte)
  | tpix (tpix : List Nat)
  | bytesIn (bytes : List Byte)
  | grid (grid : List Nat) (width height : Nat)
  | pixPal (pix : List Colour) (pixch : Nat) (pal : Palette)
  | idxPal (idx : List Nat) (pal : Palette)
  | numBytes (numBytes : Nat)
  | name (name : String)
  | nameSurplus (name : String)
  | other
deriving DecidableEq, Repr

end Sys2Proof
end

