-- ==== Sys2Proof/WellFormed.lean ====
section
/-! DEFINITION. Well-formed commands: each field value fits its field of the command word (R81). Well-formed operand
records depend on parameters and on a legal bit depth and are checked in Machine/Operands.lean. -/

namespace Sys2Proof

/-- The BPP field is 4 bits wide (R81, R84). -/
abbrev bppFits (bpp : Nat) : Bool := bpp < 16

/-- A command some command word spells. FMT, CH and WW hold one of their four values by type. -/
abbrev Instr.wf : Instr → Bool
  | .getbits _ | .setbits _ | .getbit _ | .setbit _ => true
  | .pixdec _ bpp | .pixenc _ bpp | .rowdec _ bpp | .rowenc _ bpp | .tiledec _ bpp | .tileenc _ bpp => bppFits bpp
  | .sheetdec _ bpp | .sheetenc _ bpp => bppFits bpp
  | .matchPix | .applyPal => true
  | .graypal bpp _ => bppFits bpp
  | .imgheight bpp => bppFits bpp
  | .cfgcheck _ bpp => bppFits bpp
  | .fmtlookup | .fmtname _ | .bpplist _ => true

end Sys2Proof
end

