-- ==== Sys2Proof/Decode.lean ====
section
/-! DEFINITION. The command word: fields (R81), opcode map (R87), decoder (R88), encoder (R91). -/

namespace Sys2Proof

/-- Why a command word spells no command (R88). -/
inductive Reject where
  /-- OPC is one of the 236 values outside the opcode map. -/
  | unassignedOpcode
  /-- RSV is not 0. -/
  | reservedBits
  /-- A field the command does not use is not 0. -/
  | unusedField
deriving DecidableEq, Repr

/-- OPC of an operation (R87). -/
def Mnemonic.opc : Mnemonic → BitVec 8
  | .getbits => 0x01#8
  | .setbits => 0x02#8
  | .getbit => 0x03#8
  | .setbit => 0x04#8
  | .pixdec => 0x10#8
  | .pixenc => 0x11#8
  | .rowdec => 0x12#8
  | .rowenc => 0x13#8
  | .tiledec => 0x14#8
  | .tileenc => 0x15#8
  | .sheetdec => 0x20#8
  | .sheetenc => 0x21#8
  | .matchPix => 0x30#8
  | .applyPal => 0x31#8
  | .graypal => 0x32#8
  | .imgheight => 0x40#8
  | .cfgcheck => 0x50#8
  | .fmtlookup => 0x51#8
  | .fmtname => 0x52#8
  | .bpplist => 0x53#8

/-- The twenty operations in the order of the opcode map (R87). -/
def Mnemonic.all : List Mnemonic :=
  [.getbits, .setbits, .getbit, .setbit,
   .pixdec, .pixenc, .rowdec, .rowenc, .tiledec, .tileenc,
   .sheetdec, .sheetenc,
   .matchPix, .applyPal, .graypal,
   .imgheight,
   .cfgcheck, .fmtlookup, .fmtname, .bpplist]

/-- The operation an OPC value names, if any (R87, R88). -/
def Mnemonic.ofOpc (b : BitVec 8) : Option Mnemonic :=
  Mnemonic.all.find? (fun m => m.opc == b)

/-- Does the operation use the FMT field (R87, column "fields used")? -/
def Mnemonic.usesFmt : Mnemonic → Bool
  | .pixdec | .pixenc | .rowdec | .rowenc | .tiledec | .tileenc => true
  | .sheetdec | .sheetenc | .cfgcheck | .fmtname | .bpplist => true
  | .getbits | .setbits | .getbit | .setbit | .matchPix | .applyPal | .graypal | .imgheight | .fmtlookup => false

/-- Does the operation use the BPP field (R87)? -/
def Mnemonic.usesBpp : Mnemonic → Bool
  | .pixdec | .pixenc | .rowdec | .rowenc | .tiledec | .tileenc => true
  | .sheetdec | .sheetenc | .graypal | .imgheight | .cfgcheck => true
  | .getbits | .setbits | .getbit | .setbit | .matchPix | .applyPal | .fmtlookup | .fmtname | .bpplist => false

/-- Does the operation use the CH field (R85, R87)? -/
def Mnemonic.usesCh : Mnemonic → Bool
  | .graypal => true
  | .getbits | .setbits | .getbit | .setbit | .pixdec | .pixenc | .rowdec | .rowenc | .tiledec | .tileenc => false
  | .sheetdec | .sheetenc | .matchPix | .applyPal | .imgheight | .cfgcheck | .fmtlookup | .fmtname | .bpplist => false

/-- Does the operation use the WW field (R86, R87)? -/
def Mnemonic.usesWw : Mnemonic → Bool
  | .getbits | .setbits | .getbit | .setbit => true
  | .pixdec | .pixenc | .rowdec | .rowenc | .tiledec | .tileenc | .sheetdec | .sheetenc => false
  | .matchPix | .applyPal | .graypal | .imgheight | .cfgcheck | .fmtlookup | .fmtname | .bpplist => false

/-- OPC = cw[7:0] (R81). -/
def opcField (w : CmdWord) : BitVec 8 := w.extractLsb' 0 8

/-- FMT = cw[9:8] (R81). -/
def fmtField (w : CmdWord) : BitVec 2 := w.extractLsb' 8 2

/-- BPP = cw[13:10] (R81). -/
def bppField (w : CmdWord) : BitVec 4 := w.extractLsb' 10 4

/-- CH = cw[15:14] (R81). -/
def chField (w : CmdWord) : BitVec 2 := w.extractLsb' 14 2

/-- WW = cw[17:16] (R81). -/
def wwField (w : CmdWord) : BitVec 2 := w.extractLsb' 16 2

/-- RSV = cw[31:18] (R81). -/
def rsvField (w : CmdWord) : BitVec 14 := w.extractLsb' 18 14

/-- FMT values (R83). -/
def FmtCode.ofField (b : BitVec 2) : FmtCode :=
  if b = 0#2 then .planar else if b = 1#2 then .interwined else if b = 2#2 then .gba else .reserved

/-- FMT values (R83). -/
def FmtCode.toField : FmtCode → BitVec 2
  | .planar => 0#2
  | .interwined => 1#2
  | .gba => 2#2
  | .reserved => 3#2

/-- CH values (R85). -/
def ChCode.ofField (b : BitVec 2) : ChCode :=
  if b = 0#2 then .one else if b = 1#2 then .three else if b = 2#2 then .four else .reserved

/-- CH values (R85). -/
def ChCode.toField : ChCode → BitVec 2
  | .one => 0#2
  | .three => 1#2
  | .four => 2#2
  | .reserved => 3#2

/-- WW values (R86). -/
def WidthCode.ofField (b : BitVec 2) : WidthCode :=
  if b = 0#2 then .w8 else if b = 1#2 then .w16 else if b = 2#2 then .w32 else .w64

/-- WW values (R86). -/
def WidthCode.toField : WidthCode → BitVec 2
  | .w8 => 0#2
  | .w16 => 1#2
  | .w32 => 2#2
  | .w64 => 3#2

/-- The command of an operation, with the fields it uses read from the word (R81, R87). -/
def Mnemonic.build (m : Mnemonic) (w : CmdWord) : Instr :=
  let fmt := FmtCode.ofField (fmtField w)
  let bpp := (bppField w).toNat
  let ch := ChCode.ofField (chField w)
  let ww := WidthCode.ofField (wwField w)
  match m with
  | .getbits => .getbits ww
  | .setbits => .setbits ww
  | .getbit => .getbit ww
  | .setbit => .setbit ww
  | .pixdec => .pixdec fmt bpp
  | .pixenc => .pixenc fmt bpp
  | .rowdec => .rowdec fmt bpp
  | .rowenc => .rowenc fmt bpp
  | .tiledec => .tiledec fmt bpp
  | .tileenc => .tileenc fmt bpp
  | .sheetdec => .sheetdec fmt bpp
  | .sheetenc => .sheetenc fmt bpp
  | .matchPix => .matchPix
  | .applyPal => .applyPal
  | .graypal => .graypal bpp ch
  | .imgheight => .imgheight bpp
  | .cfgcheck => .cfgcheck fmt bpp
  | .fmtlookup => .fmtlookup
  | .fmtname => .fmtname fmt
  | .bpplist => .bpplist fmt

/-- Is every field the operation does not use 0 (R87, R88)? -/
def unusedFieldsZero (m : Mnemonic) (w : CmdWord) : Bool :=
  (m.usesFmt || fmtField w == 0#2) && (m.usesBpp || bppField w == 0#4) &&
    (m.usesCh || chField w == 0#2) && (m.usesWw || wwField w == 0#2)

/-- Decode(cw) of R88. An illegal value of a used field (FMT 3, BPP outside 1..8, CH 3) decodes (R83 to R85). -/
def decode (w : CmdWord) : Except Reject Instr :=
  match Mnemonic.ofOpc (opcField w) with
  | none => .error .unassignedOpcode
  | some m =>
    if rsvField w ≠ 0#14 then .error .reservedBits
    else if unusedFieldsZero m w then .ok (m.build w)
    else .error .unusedField

/-- The operation of a command. -/
def Instr.mnemonic : Instr → Mnemonic
  | .getbits _ => .getbits
  | .setbits _ => .setbits
  | .getbit _ => .getbit
  | .setbit _ => .setbit
  | .pixdec _ _ => .pixdec
  | .pixenc _ _ => .pixenc
  | .rowdec _ _ => .rowdec
  | .rowenc _ _ => .rowenc
  | .tiledec _ _ => .tiledec
  | .tileenc _ _ => .tileenc
  | .sheetdec _ _ => .sheetdec
  | .sheetenc _ _ => .sheetenc
  | .matchPix => .matchPix
  | .applyPal => .applyPal
  | .graypal _ _ => .graypal
  | .imgheight _ => .imgheight
  | .cfgcheck _ _ => .cfgcheck
  | .fmtlookup => .fmtlookup
  | .fmtname _ => .fmtname
  | .bpplist _ => .bpplist

/-- The command word with the given field values and RSV = 0 (R91): cw = OPC | FMT << 8 | BPP << 10 | CH << 14 | WW << 16. -/
def wordOf (opc : BitVec 8) (fmt : BitVec 2) (bpp : BitVec 4) (ch ww : BitVec 2) : CmdWord :=
  opc.zeroExtend 32 ||| (fmt.zeroExtend 32 <<< 8) ||| (bpp.zeroExtend 32 <<< 10) |||
    (ch.zeroExtend 32 <<< 14) ||| (ww.zeroExtend 32 <<< 16)

/-- The word of a well-formed command (R91): "an omitted suffix leaves its field 0". -/
def encode : Instr → CmdWord
  | .getbits ww => wordOf Mnemonic.getbits.opc 0#2 0#4 0#2 ww.toField
  | .setbits ww => wordOf Mnemonic.setbits.opc 0#2 0#4 0#2 ww.toField
  | .getbit ww => wordOf Mnemonic.getbit.opc 0#2 0#4 0#2 ww.toField
  | .setbit ww => wordOf Mnemonic.setbit.opc 0#2 0#4 0#2 ww.toField
  | .pixdec fmt bpp => wordOf Mnemonic.pixdec.opc fmt.toField (BitVec.ofNat 4 bpp) 0#2 0#2
  | .pixenc fmt bpp => wordOf Mnemonic.pixenc.opc fmt.toField (BitVec.ofNat 4 bpp) 0#2 0#2
  | .rowdec fmt bpp => wordOf Mnemonic.rowdec.opc fmt.toField (BitVec.ofNat 4 bpp) 0#2 0#2
  | .rowenc fmt bpp => wordOf Mnemonic.rowenc.opc fmt.toField (BitVec.ofNat 4 bpp) 0#2 0#2
  | .tiledec fmt bpp => wordOf Mnemonic.tiledec.opc fmt.toField (BitVec.ofNat 4 bpp) 0#2 0#2
  | .tileenc fmt bpp => wordOf Mnemonic.tileenc.opc fmt.toField (BitVec.ofNat 4 bpp) 0#2 0#2
  | .sheetdec fmt bpp => wordOf Mnemonic.sheetdec.opc fmt.toField (BitVec.ofNat 4 bpp) 0#2 0#2
  | .sheetenc fmt bpp => wordOf Mnemonic.sheetenc.opc fmt.toField (BitVec.ofNat 4 bpp) 0#2 0#2
  | .matchPix => wordOf Mnemonic.matchPix.opc 0#2 0#4 0#2 0#2
  | .applyPal => wordOf Mnemonic.applyPal.opc 0#2 0#4 0#2 0#2
  | .graypal bpp ch => wordOf Mnemonic.graypal.opc 0#2 (BitVec.ofNat 4 bpp) ch.toField 0#2
  | .imgheight bpp => wordOf Mnemonic.imgheight.opc 0#2 (BitVec.ofNat 4 bpp) 0#2 0#2
  | .cfgcheck fmt bpp => wordOf Mnemonic.cfgcheck.opc fmt.toField (BitVec.ofNat 4 bpp) 0#2 0#2
  | .fmtlookup => wordOf Mnemonic.fmtlookup.opc 0#2 0#4 0#2 0#2
  | .fmtname fmt => wordOf Mnemonic.fmtname.opc fmt.toField 0#4 0#2 0#2
  | .bpplist fmt => wordOf Mnemonic.bpplist.opc fmt.toField 0#4 0#2 0#2

/-- The `match` and `mask` columns of the opcode map, transcribed from R87; `decode` does not use them, so that
a statement can compare the two. -/
def Mnemonic.matchMask : Mnemonic → CmdWord × CmdWord
  | .getbits => (0x00000001#32, 0xFFFCFFFF#32)
  | .setbits => (0x00000002#32, 0xFFFCFFFF#32)
  | .getbit => (0x00000003#32, 0xFFFCFFFF#32)
  | .setbit => (0x00000004#32, 0xFFFCFFFF#32)
  | .pixdec => (0x00000010#32, 0xFFFFC0FF#32)
  | .pixenc => (0x00000011#32, 0xFFFFC0FF#32)
  | .rowdec => (0x00000012#32, 0xFFFFC0FF#32)
  | .rowenc => (0x00000013#32, 0xFFFFC0FF#32)
  | .tiledec => (0x00000014#32, 0xFFFFC0FF#32)
  | .tileenc => (0x00000015#32, 0xFFFFC0FF#32)
  | .sheetdec => (0x00000020#32, 0xFFFFC0FF#32)
  | .sheetenc => (0x00000021#32, 0xFFFFC0FF#32)
  | .matchPix => (0x00000030#32, 0xFFFFFFFF#32)
  | .applyPal => (0x00000031#32, 0xFFFFFFFF#32)
  | .graypal => (0x00000032#32, 0xFFFF03FF#32)
  | .imgheight => (0x00000040#32, 0xFFFFC3FF#32)
  | .cfgcheck => (0x00000050#32, 0xFFFFC0FF#32)
  | .fmtlookup => (0x00000051#32, 0xFFFFFFFF#32)
  | .fmtname => (0x00000052#32, 0xFFFFFCFF#32)
  | .bpplist => (0x00000053#32, 0xFFFFFCFF#32)

/-- Does the word select the operation's row of the opcode map: (cw & mask) = match (R87)? -/
def Mnemonic.selects (m : Mnemonic) (w : CmdWord) : Bool :=
  w &&& m.matchMask.2 == m.matchMask.1

/-- The command the decoder reads from an instruction of `nbits` bits `w`, bits above `nbits` being 0. A command is one
32-bit word (R80), so a longer one is none. -/
def decodeTableWord (nbits w : Nat) : Option Instr :=
  if nbits ≤ 32 ∧ w < 2 ^ nbits then (decode (BitVec.ofNat 32 w)).toOption else none

end Sys2Proof
end

