-- ==== Sys2Proof/Machine/State.lean ====
section
/-! DEFINITION. The state of the block and of its host, the reasons a step stops, and the state after reset. -/

namespace Sys2Proof.Machine

/-- PHASE (R22). The 2-bit code is `Phase.code`; the code 0b11 is never produced and has no constructor (log 20). -/
inductive Phase where
  | idle | running | done
deriving DecidableEq, Repr

/-- An output element (R28): each command rule names the type of its elements. -/
inductive Element where
  /-- A W-bit word, or the 1-bit value of GETBIT, as a natural number (R100 to R103). -/
  | word (value : Nat)
  /-- A natural number: a height (R200) or a bit depth (R212). -/
  | nat (value : Nat)
  /-- A palette index (R130, R182). -/
  | index (value : Nat)
  /-- A sequence of indices: a pixel row (R132, R161) or the 64 indices of a tile (R134). -/
  | indices (values : List Nat)
  /-- A sequence of bytes: a row's bytes (R133) or a tile (R131, R135, R165). -/
  | bytes (values : List Byte)
  /-- A colour (R186, R188). -/
  | colour (value : Colour)
  /-- A format code (R210). -/
  | format (code : BitVec 2)
  /-- A format name (R211). -/
  | name (value : String)
deriving DecidableEq, Repr

/-- One command transaction: a command word and an operand record (R80). -/
structure Request where
  word : CmdWord
  ops : Record
deriving DecidableEq, Repr

/-- One move of the host (the table of R253), or `pass`: the host does nothing now and the engine's enabled step, if
any, is taken. The model's own type (log 2). -/
inductive HostMove where
  /-- The host does nothing; the engine takes its step if one is enabled (R31). -/
  | pass
  /-- Issue a command (R29). -/
  | issue (r : Request)
  /-- Assert reset (R250). -/
  | reset
  /-- Read the next element of OUT (R257). -/
  | takeElement
  /-- Read PHASE, RESULT, RESULT_POS and RESULT_VAL (R253). -/
  | readStatus
  /-- Modify an input buffer; forbidden while RUNNING (R254). -/
  | modifyInput
deriving DecidableEq, Repr

/-- What one read gave the host. The model's own type (log 16). -/
inductive Observation where
  | status (phase : BitVec 2) (result : BitVec 32) (pos val : Nat)
  | element (e : Element)
deriving DecidableEq, Repr

/-- Why the machine stops with a fault: the two host actions for which "the model has no move". Both are safe: the
model stops where an implementation may go on. -/
inductive Fault where
  /-- A command issued while PHASE = RUNNING (R256, I11). Raised by every command's acceptance and by the refusal of a
  reserved word. Safe (log 5). -/
  | issueWhileRunning
  /-- An input buffer modified while PHASE = RUNNING (R254, I10). Raised by the host move `modifyInput`. Safe (log 6). -/
  | inputModifiedWhileRunning
deriving DecidableEq, Repr

/-- Why a step is refused. Nothing of the spec ends here: a refusal of the spec (R233) leaves the run going and sets the
refusal mark (log 7). -/
inductive Refusal where
  /-- The instruction has no meaning in this model. No arm of exec answers it: every command is modelled. Safe. -/
  | notModelled (mnemonic : String)
deriving DecidableEq, Repr

/-- Everything the spec gives the block (R35), the parameters (R8), and the host's side of the interface (R253). -/
structure State where
  /-- PHASE (R22). -/
  phase : Phase
  /-- CMD, the latched command word (R23). -/
  cmd : BitVec 32
  /-- OPS, the operand record of the command being executed, if any (R24). -/
  ops : Option Record
  /-- RESULT: CODE [3:0], SUB [7:4], reserved [31:8] (R25). -/
  result : BitVec 32
  /-- RESULT_POS (R26). -/
  resultPos : Nat
  /-- RESULT_VAL (R26). -/
  resultVal : Nat
  /-- OUT, the elements emitted by the current or last command (R28). -/
  out : List Element
  /-- PENDING, the elements still to emit (R29, R31). -/
  pending : List Element
  /-- CUR, the cursor (R32). -/
  cur : Nat
  /-- TOTAL (R32). -/
  total : Nat
  /-- The model's refusal mark, not hardware state (R35, R233). -/
  refused : Bool
  /-- The parameters of R8. Nothing writes them (log 10). -/
  params : Params
  /-- The transaction the host last presented on the command interface (R80). The host's side (log 3). -/
  port : Request
  /-- The host's moves still to come, next first. The host's side (log 2). -/
  script : List HostMove
  /-- How many elements of OUT the host has read (R257). The host's side (log 16). -/
  taken : Nat
  /-- What the host has read, oldest first. The host's side (log 16). -/
  seen : List Observation
deriving DecidableEq, Repr

/-- The state after reset at the start of a run (R35). RESULT reads CODE = 15 (NONE), SUB = 0. CMD is unspecified there
and holds 0 here (DESIGN CHOICE, log 1). The parameters have the spec's values (log 10); the host has presented
nothing, has no move to come and has read nothing (log 2, log 3, log 16). -/
def State.reset : State where
  phase := .idle
  cmd := 0x00000000#32
  ops := none
  result := 0x0000000F#32
  resultPos := 0
  resultVal := 0
  out := []
  pending := []
  cur := 0
  total := 0
  refused := false
  params := Params.default
  port := ⟨0x00000000#32, .empty⟩
  script := []
  taken := 0
  seen := []

end Sys2Proof.Machine
end

