-- ==== Sys2Proof/Machine/Flags.lean ====
section
/-! DEFINITION. The block has no flags (R27); its status is PHASE and RESULT. This file holds their layout (R22, R25), the
result codes (R220) and the errors with their sub-causes (R221 to R225). -/

namespace Sys2Proof.Machine

/-- PHASE as the host reads it (R22). -/
def Phase.code : Phase → BitVec 2
  | .idle => 0b00#2
  | .running => 0b01#2
  | .done => 0b10#2

/-- RESULT from its fields: reserved bits [31:8] are 0, SUB is [7:4], CODE is [3:0] (R25). -/
def packResult (code sub : BitVec 4) : BitVec 32 := 0#24 ++ sub ++ code

/-- RESULT.CODE (R25). -/
def resultCode (r : BitVec 32) : BitVec 4 := r.extractLsb' 0 4

/-- RESULT.SUB (R25). -/
def resultSub (r : BitVec 32) : BitVec 4 := r.extractLsb' 4 4

/-- CODE OK (R220). -/
def codeOk : BitVec 4 := 0#4

/-- CODE NONE (R220). -/
def codeNone : BitVec 4 := 15#4

/-- How a command completes with an error (R220): the four error kinds with their sub-causes and what they carry. -/
inductive CmdError where
  /-- ConfigurationError, BPP field not in 1..8 (R221). -/
  | bppRange
  /-- ConfigurationError, (format, bpp) pair not supported (R221). -/
  | pairUnsupported
  /-- ConfigurationError, FMT = 3 (R221). -/
  | formatReserved
  /-- ConfigurationError, CH = 3 (R221). -/
  | channelsReserved
  /-- ConfigurationError, unknown format name (R221). -/
  | nameUnknown
  /-- DimensionError, width mod 8 != 0 (R223). -/
  | widthNotMultiple
  /-- DimensionError, height mod 8 != 0 (R223). -/
  | heightNotMultiple
  /-- DimensionError, len(grid) != width × height (R223). -/
  | gridLength
  /-- PaletteMismatchError, a colour with no exact match, at this position (R224). -/
  | noMatch (pos : Nat)
  /-- PaletteMismatchError, pixel channel count differs from the palette's (R224). -/
  | channelMismatch
  /-- IndexOutOfRangeError, the first such index's position and value (R225). -/
  | indexOutOfRange (pos val : Nat)
deriving DecidableEq, Repr

/-- CODE of an error (R220). -/
def CmdError.code : CmdError → BitVec 4
  | .bppRange | .pairUnsupported | .formatReserved | .channelsReserved | .nameUnknown => 1#4
  | .widthNotMultiple | .heightNotMultiple | .gridLength => 2#4
  | .noMatch _ | .channelMismatch => 3#4
  | .indexOutOfRange _ _ => 4#4

/-- SUB of an error (R221, R223, R224, R225). -/
def CmdError.sub : CmdError → BitVec 4
  | .bppRange => 0#4
  | .pairUnsupported => 1#4
  | .formatReserved => 2#4
  | .channelsReserved => 3#4
  | .nameUnknown => 4#4
  | .widthNotMultiple => 0#4
  | .heightNotMultiple => 1#4
  | .gridLength => 2#4
  | .noMatch _ => 0#4
  | .channelMismatch => 1#4
  | .indexOutOfRange _ _ => 0#4

/-- RESULT_POS of an error (R26): 0 but for the two errors that carry a position. -/
def CmdError.pos : CmdError → Nat
  | .noMatch pos => pos
  | .indexOutOfRange pos _ => pos
  | .bppRange | .pairUnsupported | .formatReserved | .channelsReserved | .nameUnknown => 0
  | .widthNotMultiple | .heightNotMultiple | .gridLength | .channelMismatch => 0

/-- RESULT_VAL of an error (R26): 0 but for IndexOutOfRangeError. -/
def CmdError.val : CmdError → Nat
  | .indexOutOfRange _ val => val
  | .bppRange | .pairUnsupported | .formatReserved | .channelsReserved | .nameUnknown => 0
  | .widthNotMultiple | .heightNotMultiple | .gridLength | .noMatch _ | .channelMismatch => 0

end Sys2Proof.Machine
end

