-- ==== Sys2Proof/Machine/Operands.lean ====
section
/-! DEFINITION. Field values as commands use them (R83 to R86), the supported bit depths (R212), the configuration check
(R222), and the shape checks on operand records (R89, R90). -/

namespace Sys2Proof.Machine

/-- W, the decoded word width (R86). -/
def widthBits : WidthCode → Nat
  | .w8 => 8
  | .w16 => 16
  | .w32 => 32
  | .w64 => 64

/-- The format an FMT value names; 3 names none (R83). -/
def formatOf : FmtCode → Option Format
  | .planar => some .planar
  | .interwined => some .interwined
  | .gba => some .gba
  | .reserved => none

/-- The FMT value of a format (R83). -/
def formatCode : Format → FmtCode
  | .planar => .planar
  | .interwined => .interwined
  | .gba => .gba

/-- The channel count a CH value gives; 3 gives none (R85). -/
def channelsOf : ChCode → Option Nat
  | .one => some 1
  | .three => some 3
  | .four => some 4
  | .reserved => none

/-- BPP in 1..8 (R84). -/
def bppInRange (bpp : Nat) : Bool := 1 ≤ bpp && bpp ≤ 8

/-- BppSet: the bit depths a format supports, ascending (R212). -/
def bppSet : Format → List Nat
  | .planar => [1, 2, 3, 4, 5, 6, 7, 8]
  | .interwined => [1, 2, 3, 4, 5, 6, 7, 8]
  | .gba => [4, 8]

/-- A legal (format, bpp) pair (R212). -/
def legalPair (fmt : Format) (bpp : Nat) : Bool := bpp ∈ bppSet fmt

/-- CheckCfg (R222): FMT, then the range of BPP, then the pair. It reads no operand. -/
def checkCfg (fmt : FmtCode) (bpp : Nat) : Except CmdError Format :=
  match formatOf fmt with
  | none => .error .formatReserved
  | some f =>
    if bppInRange bpp then
      if legalPair f bpp then .ok f else .error .pairUnsupported
    else .error .bppRange

/-- A length within a capacity parameter (R8, R90). -/
def withinCap (cap : Option Nat) (n : Nat) : Bool :=
  match cap with
  | none => true
  | some m => n ≤ m

/-- The record shape of GETBITS: word < 2^W, start and n in 0..64 (R89). -/
def bitfieldShape (ww : WidthCode) (word start n : Nat) : Bool :=
  word < 2 ^ widthBits ww && start ≤ 64 && n ≤ 64

/-- The record shape of SETBITS: as GETBITS, and value < 2^64 (R89). -/
def setBitfieldShape (ww : WidthCode) (word start n value : Nat) : Bool :=
  bitfieldShape ww word start n && value < 2 ^ 64

/-- The record shape of GETBIT: word < 2^W, bit in 0..64 (R89). -/
def bitShape (ww : WidthCode) (word bit : Nat) : Bool :=
  word < 2 ^ widthBits ww && bit ≤ 64

/-- The record shape of SETBIT: as GETBIT, and b < 2^64 (R89). -/
def setBitShape (ww : WidthCode) (word bit b : Nat) : Bool :=
  bitShape ww word bit && b < 2 ^ 64

/-- A TILE buffer holds exactly bpp × 8 bytes (R50, R120). -/
def tileShape (bpp : Nat) (tile : List Byte) : Bool := tile.length == bpp * 8

/-- y and x in 0..7 (R89). -/
def coordShape (c : Nat) : Bool := c < 8

/-- A ROW buffer holds exactly 8 indices (R50, R89). DESIGN CHOICE, unsafe: a MAX_ELEMS below 8 does not refuse it, which
R8, R89 and R90 leave open (log 26). -/
def rowShape (row : List Nat) : Bool := row.length == 8

/-- A TPIX buffer holds exactly 64 indices (R50, R89). DESIGN CHOICE, unsafe: a MAX_ELEMS below 64 does not refuse it,
which R8, R89 and R90 leave open (log 26). -/
def tpixShape (tpix : List Nat) : Bool := tpix.length == 64

/-- A colour of exactly `channels` bytes (R11, R180). -/
def colourShape (channels : Nat) (c : Colour) : Bool := c.length == channels

/-- A palette (R180): channels in {1, 3, 4}, each entry exactly that many bytes, at most PAL_CAP entries. -/
def paletteShape (params : Params) (pal : Palette) : Bool :=
  (pal.channels == 1 || pal.channels == 3 || pal.channels == 4) &&
    pal.entries.all (colourShape pal.channels) && withinCap params.palCap pal.entries.length

/-- The record shape of MATCH (R89): pixch >= 1, each colour of PIX exactly pixch bytes, a palette, PIX within
MAX_ELEMS (R8, log 17). -/
def matchShape (params : Params) (pix : List Colour) (pixch : Nat) (pal : Palette) : Bool :=
  1 ≤ pixch && pix.all (colourShape pixch) && withinCap params.maxElems pix.length && paletteShape params pal

/-- The record shape of APPLY (R89): IDX within MAX_ELEMS and a palette. -/
def applyShape (params : Params) (idx : List Nat) (pal : Palette) : Bool :=
  withinCap params.maxElems idx.length && paletteShape params pal

/-- The name a record holds, be its set of fields that of FMTLOOKUP or not (R89). -/
def recordName : Record → Option String
  | .name name | .nameSurplus name => some name
  | _ => none

/-- The record shape of FMTLOOKUP: a name and nothing else (R89). -/
def nameShape : Record → Bool
  | .name _ => true
  | _ => false

/-- The smallest well-formed record of a command with a legal configuration (R89). The model's own: `withFetchWord`
presents it beside a bare command word (log 3). -/
def smallestRecord (params : Params) : Instr → Record
  | .getbits _ => .wordStartN 0 0 0
  | .setbits _ => .wordStartNValue 0 0 0 0
  | .getbit _ => .wordBit 0 0
  | .setbit _ => .wordBitB 0 0 0
  | .pixdec _ bpp => .tileYX (List.replicate (bpp * 8) 0#8) 0 0
  | .pixenc _ bpp => .tileYXV (List.replicate (bpp * 8) 0#8) 0 0 0
  | .rowdec _ bpp => .tileY (List.replicate (bpp * 8) 0#8) 0
  | .rowenc _ _ => .row (List.replicate 8 0)
  | .tiledec _ bpp => .tile (List.replicate (bpp * 8) 0#8)
  | .tileenc _ _ => .tpix (List.replicate 64 0)
  | .sheetdec _ _ => .bytesIn []
  | .sheetenc _ _ => .grid [] 0 0
  | .matchPix => .pixPal [] 1 ⟨1, []⟩
  | .applyPal => .idxPal [] ⟨1, []⟩
  | .graypal _ _ => .empty
  | .imgheight _ => .numBytes 0
  | .cfgcheck _ _ => .empty
  | .fmtlookup => .name params.namePlanar
  | .fmtname _ => .empty
  | .bpplist _ => .empty

end Sys2Proof.Machine
end

