-- ==== Sys2Proof/Machine/Ops.lean ====
section
/-! DEFINITION. The named operations on the state: acceptance (R29), completion (R30, R228), refusal (R233), the engine
step (R31), reset (R250), the host's reads (R253, R257), and element reads of input buffers (R12). -/

namespace Sys2Proof.Machine

/-- What the pure function Exec of a command returns (R29). -/
inductive ExecResult where
  /-- A refusal: the record is ill-formed (R90). -/
  | refuse
  /-- An error (R220). -/
  | err (e : CmdError)
  /-- The whole ordered list of output elements. -/
  | ok (elements : List Element)
deriving DecidableEq, Repr

/-- MemRead(S, a, 1) on a byte buffer, as a natural number (R12). No command reads at or past the end of a buffer (R56);
the 0 there is never read (log 13). -/
def readByte (buf : List Byte) (a : Nat) : Nat := (buf.getD a 0#8).toNat

/-- MemRead(S, a, 1) on an index buffer (R12); the 0 past the end is never read (log 13). -/
def readIndex (buf : List Nat) (a : Nat) : Nat := buf.getD a 0

/-- The `len` elements of a byte buffer from `a` on: s[a .. a + len) (R11). -/
def slice (buf : List Byte) (a len : Nat) : List Byte := (buf.drop a).take len

/-- A command that uses FMT and BPP checks its configuration first and reads no operand when it is not legal (R222,
R227). -/
def withConfig (fmt : FmtCode) (bpp : Nat) (k : Format → ExecResult) : ExecResult :=
  match checkCfg fmt bpp with
  | .error e => .err e
  | .ok f => k f

/-- A command that uses BPP without FMT checks its range first (R188, R200, D33). -/
def withBpp (bpp : Nat) (k : ExecResult) : ExecResult :=
  if bppInRange bpp then k else .err .bppRange

/-- A command that uses FMT without BPP checks that it names a format (R211, R212). -/
def withFormat (fmt : FmtCode) (k : Format → ExecResult) : ExecResult :=
  match formatOf fmt with
  | none => .err .formatReserved
  | some f => k f

/-- A record of another shape is refused (R90). -/
def ifShaped (shape : Bool) (k : ExecResult) : ExecResult :=
  if shape then k else .refuse

/-- Complete(E, sub, p, v), the only writer of a non-NONE RESULT (R30). Completion with an error does nothing else
(R228). -/
def completeCommand (code sub : BitVec 4) (pos val : Nat) (s : State) : State :=
  { s with result := packResult code sub, resultPos := pos, resultVal := val, pending := [], phase := .done }

/-- What acceptance writes before it looks at the outcome (R29). The new OUT has not been read by the host (R253). -/
def latchCommand (s : State) : State :=
  { s with
    cmd := s.port.word
    ops := some s.port.ops
    out := []
    cur := 0
    result := packResult codeNone 0#4
    resultPos := 0
    resultVal := 0
    taken := 0 }

/-- An accepted command with elements to emit (R29). -/
def launchCommand (elements : List Element) (s : State) : State :=
  { s with pending := elements, total := elements.length, phase := .running }

/-- A refusal: no architectural state changes, the refusal mark is set (R233). -/
def markRefused (s : State) : State := { s with refused := true }

/-- Accept(cw, ops) of R29 with the outcome of Exec given, in IDLE or DONE. -/
def acceptOutcome (r : ExecResult) (s : State) : State :=
  match r with
  | .refuse => markRefused s
  | .err e => completeCommand e.code e.sub e.pos e.val (latchCommand s)
  | .ok [] => completeCommand codeOk 0#4 0 0 (launchCommand [] (latchCommand s))
  | .ok (e :: rest) => launchCommand (e :: rest) (latchCommand s)

/-- Acceptance (R29) of the presented transaction. While RUNNING there is no move (R256). -/
def accept (r : ExecResult) (s : State) : Host.Outcome State Fault Refusal :=
  match s.phase with
  | .running => .fault .issueWhileRunning
  | .idle | .done => .next (acceptOutcome r s)

/-- A reserved command word presented (R88, R233): refused in IDLE or DONE; while RUNNING there is no move (R256). -/
def refuseWord (s : State) : Host.Outcome State Fault Refusal :=
  match s.phase with
  | .running => .fault .issueWhileRunning
  | .idle | .done => .next (markRefused s)

/-- Emit(e) (R12, R31): OUT gets one more element and CUR counts it. -/
def emitElement (e : Element) (rest : List Element) (s : State) : State :=
  { s with out := s.out ++ [e], pending := rest, cur := s.cur + 1 }

/-- The engine's step (R31). Where none is enabled the engine waits and nothing changes (log 4). -/
def engineStep (s : State) : State :=
  match s.phase, s.pending with
  | .running, [e] => completeCommand codeOk 0#4 0 0 (emitElement e [] s)
  | .running, e :: e' :: rest => emitElement e (e' :: rest) s
  | .running, [] => s
  | .idle, _ => s
  | .done, _ => s

/-- Reset (R250): every piece of block state gets its value of R35; a running command is abandoned. The parameters, the
refusal mark (R35) and the host's own side stay (log 18); CMD gets the value of log 1. -/
def resetBlock (s : State) : State :=
  { s with
    phase := .idle
    cmd := State.reset.cmd
    ops := none
    result := State.reset.result
    resultPos := 0
    resultVal := 0
    out := []
    pending := []
    cur := 0
    total := 0
    taken := 0 }

/-- The host reads the next element of OUT, each once and in order (R253, R257). Where none has appeared that it has not
read, it gets nothing (log 16). -/
def takeElement (s : State) : State :=
  match s.out[s.taken]? with
  | some e => { s with taken := s.taken + 1, seen := s.seen ++ [.element e] }
  | none => s

/-- The host reads the status registers (R253). -/
def readStatus (s : State) : State :=
  { s with seen := s.seen ++ [.status s.phase.code s.result s.resultPos s.resultVal] }

/-- The host modifies an input buffer: no move while RUNNING (R254, I10), nothing of the block otherwise. -/
def modifyInput (s : State) : Host.Outcome State Fault Refusal :=
  match s.phase with
  | .running => .fault .inputModifiedWhileRunning
  | .idle | .done => .next s

/-- The host presents a transaction on the command interface (R80). -/
def presentRequest (r : Request) (s : State) : State := { s with port := r }

/-- The move at the head of the host's script is used up. -/
def dropMove (rest : List HostMove) (s : State) : State := { s with script := rest }

end Sys2Proof.Machine
end

