-- ==== Sys2Proof/Machine/PaletteEngine.lean ====
section
/-! DEFINITION. The palette engine (43_palette.md): MATCH, APPLY, GRAYPAL. -/

namespace Sys2Proof.Machine

/-- The least index of a palette entry equal to a colour, if any: first match wins (R182, R183). Colours are equal
when they are the same sequence of channel bytes (R181). -/
def firstMatch (entries : List Colour) (c : Colour) : Option Nat := entries.findIdx? (fun e => e == c)

/-- MATCH's scan from position `pos` on (R182): the indices, or the error at the first colour with no match. -/
def matchFrom (entries : List Colour) (pos : Nat) : List Colour → Except CmdError (List Nat)
  | [] => .ok []
  | c :: rest =>
    match firstMatch entries c with
    | none => .error (.noMatch pos)
    | some t =>
      match matchFrom entries (pos + 1) rest with
      | .error e => .error e
      | .ok ts => .ok (t :: ts)

/-- Exec of MATCH (R182): the channel check, then every pixel, then the output (R185). -/
def matchResult (params : Params) (r : Record) : ExecResult :=
  match r with
  | .pixPal pix pixch pal =>
    ifShaped (matchShape params pix pixch pal) <|
      if pixch ≠ pal.channels then .err .channelMismatch
      else
        match matchFrom pal.entries 0 pix with
        | .error e => .err e
        | .ok ts => .ok (ts.map .index)
  | _ => .refuse

/-- MATCH (R182). -/
def execMatchPix (s : State) : Host.Outcome State Fault Refusal :=
  accept (matchResult s.params s.port.ops) s

/-- APPLY's scan from position `pos` on (R186): the colours, or the error at the first index out of range. -/
def applyFrom (entries : List Colour) (pos : Nat) : List Nat → Except CmdError (List Colour)
  | [] => .ok []
  | i :: rest =>
    match entries[i]? with
    | none => .error (.indexOutOfRange pos i)
    | some c =>
      match applyFrom entries (pos + 1) rest with
      | .error e => .error e
      | .ok cs => .ok (c :: cs)

/-- Exec of APPLY (R186): every index is examined before the first colour is emitted (R185). -/
def applyResult (params : Params) (r : Record) : ExecResult :=
  match r with
  | .idxPal idx pal =>
    ifShaped (applyShape params idx pal) <|
      match applyFrom pal.entries 0 idx with
      | .error e => .err e
      | .ok cs => .ok (cs.map .colour)
  | _ => .refuse

/-- APPLY (R186). -/
def execApplyPal (s : State) : Host.Outcome State Fault Refusal :=
  accept (applyResult s.params s.port.ops) s

/-- The gray level g(t) = round(255 t / d) with d = 2^bpp - 1, as the integer formula of R189. -/
def grayLevel (bpp t : Nat) : Nat := (510 * t + (2 ^ bpp - 1)) / (2 * (2 ^ bpp - 1))

/-- Gray(C, g) (R190): the level on each colour channel, alpha 255. -/
def grayColour (channels g : Nat) : Colour :=
  if channels = 4 then [BitVec.ofNat 8 g, BitVec.ofNat 8 g, BitVec.ofNat 8 g, 255#8]
  else List.replicate channels (BitVec.ofNat 8 g)

/-- The entries of the default grayscale palette, index 0 first (R188). -/
def grayEntries (channels bpp : Nat) : List Colour :=
  (List.range (2 ^ bpp)).map fun t => grayColour channels (grayLevel bpp t)

/-- Exec of GRAYPAL (R188): BPP is checked before CH (R227), then the record's shape. -/
def graypalResult (bpp : Nat) (ch : ChCode) (r : Record) : ExecResult :=
  withBpp bpp <|
    match channelsOf ch with
    | none => .err .channelsReserved
    | some channels =>
      match r with
      | .empty => .ok ((grayEntries channels bpp).map .colour)
      | _ => .refuse

/-- GRAYPAL (R188). -/
def execGraypal (bpp : Nat) (ch : ChCode) (s : State) : Host.Outcome State Fault Refusal :=
  accept (graypalResult bpp ch s.port.ops) s

end Sys2Proof.Machine
end

