-- ==== Sys2Proof/Machine/Bitfield.lean ====
section
/-! DEFINITION. The bitfield primitives (40_bitfield.md): GETBITS, SETBITS, GETBIT, SETBIT. -/

namespace Sys2Proof.Machine

/-- mask(n) = 2^n - 1 (R10). -/
def mask (n : Nat) : Nat := 2 ^ n - 1

/-- a & ~m on naturals: the bits of `a` outside `m` (R101). -/
def clearMask (a m : Nat) : Nat := a ^^^ (a &&& m)

/-- GETBITS (R100): (word >> start) & mask(n). -/
def getBits (word start n : Nat) : Nat := (word >>> start) &&& mask n

/-- SETBITS at word width `w` (R101): the final mod 2^w drops field bits at positions >= w (R104). -/
def setBits (w word start n value : Nat) : Nat :=
  (clearMask word (mask n <<< start) ||| ((value &&& mask n) <<< start)) % 2 ^ w

/-- GETBIT (R102): (word >> bit) & 1. -/
def getBit (word bit : Nat) : Nat := (word >>> bit) &&& 1

/-- SETBIT at word width `w` (R103). -/
def setBit (w word bit b : Nat) : Nat :=
  (clearMask word (1 <<< bit) ||| ((b &&& 1) <<< bit)) % 2 ^ w

/-- Exec of GETBITS (R100). -/
def getbitsResult (ww : WidthCode) (r : Record) : ExecResult :=
  match r with
  | .wordStartN word start n => ifShaped (bitfieldShape ww word start n) (.ok [.word (getBits word start n)])
  | _ => .refuse

/-- GETBITS (R100). -/
def execGetbits (ww : WidthCode) (s : State) : Host.Outcome State Fault Refusal :=
  accept (getbitsResult ww s.port.ops) s

/-- Exec of SETBITS (R101). -/
def setbitsResult (ww : WidthCode) (r : Record) : ExecResult :=
  match r with
  | .wordStartNValue word start n value =>
    ifShaped (setBitfieldShape ww word start n value) (.ok [.word (setBits (widthBits ww) word start n value)])
  | _ => .refuse

/-- SETBITS (R101). -/
def execSetbits (ww : WidthCode) (s : State) : Host.Outcome State Fault Refusal :=
  accept (setbitsResult ww s.port.ops) s

/-- Exec of GETBIT (R102). -/
def getbitResult (ww : WidthCode) (r : Record) : ExecResult :=
  match r with
  | .wordBit word bit => ifShaped (bitShape ww word bit) (.ok [.word (getBit word bit)])
  | _ => .refuse

/-- GETBIT (R102). -/
def execGetbit (ww : WidthCode) (s : State) : Host.Outcome State Fault Refusal :=
  accept (getbitResult ww s.port.ops) s

/-- Exec of SETBIT (R103). -/
def setbitResult (ww : WidthCode) (r : Record) : ExecResult :=
  match r with
  | .wordBitB word bit b => ifShaped (setBitShape ww word bit b) (.ok [.word (setBit (widthBits ww) word bit b)])
  | _ => .refuse

/-- SETBIT (R103). -/
def execSetbit (ww : WidthCode) (s : State) : Host.Outcome State Fault Refusal :=
  accept (setbitResult ww s.port.ops) s

end Sys2Proof.Machine
end

