-- ==== Sys2Proof/Machine/Layout.lean ====
section
/-! DEFINITION. The tile layouts (41_pixel_codec.md sections 1 to 3): row-byte offsets, pixel decode, row encode, and the
tile-wide functions built on them. -/

namespace Sys2Proof.Machine

/-- ROWOFF (R126): the tile offset of byte `j` of row `y`. -/
def rowOff (fmt : Format) (bpp y j : Nat) : Nat :=
  match fmt with
  | .planar => y + 8 * j
  | .interwined => if j < 2 * (bpp / 2) then 16 * (j / 2) + 2 * y + j % 2 else 16 * (bpp / 2) + y
  | .gba => bpp * y + j

/-- v[i], as 0 or 1 (R9). -/
def bitAt (v i : Nat) : Nat := (v >>> i) &&& 1

/-- DecPix for the bit-plane layouts (R127): index bit i is bit 7 - x of the byte of plane i. -/
def decPlanes (fmt : Format) (bpp : Nat) (tile : List Byte) (y x : Nat) : Nat :=
  ((List.range bpp).map fun i => bitAt (readByte tile (rowOff fmt bpp y i)) (7 - x) <<< i).sum

/-- DecPix for the GBA layout (R127): the field [s + bpp - 1 : s] of one byte. -/
def decGba (bpp : Nat) (tile : List Byte) (y x : Nat) : Nat :=
  getBits (readByte tile (rowOff .gba bpp y (x * bpp / 8))) (x * bpp % 8) bpp

/-- DecPix (R127): the index of pixel (y, x) of a tile. -/
def decPix (fmt : Format) (bpp : Nat) (tile : List Byte) (y x : Nat) : Nat :=
  match fmt with
  | .planar => decPlanes .planar bpp tile y x
  | .interwined => decPlanes .interwined bpp tile y x
  | .gba => decGba bpp tile y x

/-- The 8 indices of pixel row `y` of a tile, left to right (R132). -/
def decRow (fmt : Format) (bpp : Nat) (tile : List Byte) (y : Nat) : List Nat :=
  (List.range 8).map fun x => decPix fmt bpp tile y x

/-- The 64 indices of a tile, row-major (R134). -/
def decTile (fmt : Format) (bpp : Nat) (tile : List Byte) : List Nat :=
  (List.range 8).flatMap fun y => decRow fmt bpp tile y

/-- EncRow for the bit-plane layouts (R128): one byte per plane. -/
def encPlanes (bpp : Nat) (p : List Nat) : List Byte :=
  (List.range bpp).map fun i =>
    BitVec.ofNat 8 ((List.range 8).map fun x => bitAt (readIndex p x &&& mask bpp) i <<< (7 - x)).sum

/-- EncRow for the GBA layout (R128): byte j holds the pixels x with (x * bpp) div 8 = j. -/
def encGba (bpp : Nat) (p : List Nat) : List Byte :=
  (List.range bpp).map fun j =>
    BitVec.ofNat 8
      (((List.range 8).filter fun x => x * bpp / 8 == j).map fun x =>
        (readIndex p x &&& mask bpp) <<< (x * bpp % 8)).sum

/-- EncRow (R128): the bpp bytes of a row of 8 indices, each index masked to bpp bits (R136). -/
def encRow (fmt : Format) (bpp : Nat) (p : List Nat) : List Byte :=
  match fmt with
  | .planar => encPlanes bpp p
  | .interwined => encPlanes bpp p
  | .gba => encGba bpp p

/-- The writes T[ROWOFF(fmt, bpp, y, j)] <- B[j] of a whole tile, in TILEENC's order (R135). -/
def tileWrites (fmt : Format) (bpp : Nat) (tpix : List Nat) : List (Nat × Byte) :=
  (List.range 8).flatMap fun y =>
    let row := encRow fmt bpp ((tpix.drop (8 * y)).take 8)
    (List.range bpp).map fun j => (rowOff fmt bpp y j, row.getD j 0#8)

/-- TILEENC without its configuration check (R135, R165). Every byte is written exactly once (R126), so the initial
zeros do not show. -/
def encTile (fmt : Format) (bpp : Nat) (tpix : List Nat) : List Byte :=
  (tileWrites fmt bpp tpix).foldl (fun t w => t.set w.1 w.2) (List.replicate (bpp * 8) 0#8)

/-- SETBITS8 on byte `o` of a tile (R131, R101 at W = 8). -/
def setByteBits (tile : List Byte) (o start n value : Nat) : List Byte :=
  tile.set o (BitVec.ofNat 8 (setBits 8 (readByte tile o) start n value))

/-- SETBIT8 on byte `o` of a tile (R131, R103 at W = 8). -/
def setByteBit (tile : List Byte) (o bit b : Nat) : List Byte :=
  tile.set o (BitVec.ofNat 8 (setBit 8 (readByte tile o) bit b))

/-- PIXENC on the bit-plane layouts (R131): one bit in each plane's byte. -/
def putPlanes (fmt : Format) (bpp : Nat) (tile : List Byte) (y x v : Nat) : List Byte :=
  (List.range bpp).foldl
    (fun t i => setByteBit t (rowOff fmt bpp y i) (7 - x) (bitAt (v &&& mask bpp) i)) tile

/-- PIXENC on the GBA layout (R131): one field of one byte. -/
def putGba (bpp : Nat) (tile : List Byte) (y x v : Nat) : List Byte :=
  setByteBits tile (rowOff .gba bpp y (x * bpp / 8)) (x * bpp % 8) bpp (v &&& mask bpp)

/-- The modified copy of a tile that PIXENC emits (R131). -/
def putPix (fmt : Format) (bpp : Nat) (tile : List Byte) (y x v : Nat) : List Byte :=
  match fmt with
  | .planar => putPlanes .planar bpp tile y x v
  | .interwined => putPlanes .interwined bpp tile y x v
  | .gba => putGba bpp tile y x v

end Sys2Proof.Machine
end

