-- ==== Sys2Proof/Machine/PixelCodec.lean ====
section
/-! DEFINITION. The pixel and tile commands (41_pixel_codec.md section 4): PIXDEC, PIXENC, ROWDEC, ROWENC, TILEDEC,
TILEENC. Each checks its configuration, then its record's shape, and emits one element. -/

namespace Sys2Proof.Machine

/-- Exec of PIXDEC (R130). -/
def pixdecResult (fmt : FmtCode) (bpp : Nat) (r : Record) : ExecResult :=
  withConfig fmt bpp fun f =>
    match r with
    | .tileYX tile y x =>
      ifShaped (tileShape bpp tile && coordShape y && coordShape x) (.ok [.index (decPix f bpp tile y x)])
    | _ => .refuse

/-- PIXDEC (R130). -/
def execPixdec (fmt : FmtCode) (bpp : Nat) (s : State) : Host.Outcome State Fault Refusal :=
  accept (pixdecResult fmt bpp s.port.ops) s

/-- Exec of PIXENC (R131). -/
def pixencResult (fmt : FmtCode) (bpp : Nat) (r : Record) : ExecResult :=
  withConfig fmt bpp fun f =>
    match r with
    | .tileYXV tile y x v =>
      ifShaped (tileShape bpp tile && coordShape y && coordShape x) (.ok [.bytes (putPix f bpp tile y x v)])
    | _ => .refuse

/-- PIXENC (R131). -/
def execPixenc (fmt : FmtCode) (bpp : Nat) (s : State) : Host.Outcome State Fault Refusal :=
  accept (pixencResult fmt bpp s.port.ops) s

/-- Exec of ROWDEC (R132). -/
def rowdecResult (fmt : FmtCode) (bpp : Nat) (r : Record) : ExecResult :=
  withConfig fmt bpp fun f =>
    match r with
    | .tileY tile y => ifShaped (tileShape bpp tile && coordShape y) (.ok [.indices (decRow f bpp tile y)])
    | _ => .refuse

/-- ROWDEC (R132). -/
def execRowdec (fmt : FmtCode) (bpp : Nat) (s : State) : Host.Outcome State Fault Refusal :=
  accept (rowdecResult fmt bpp s.port.ops) s

/-- Exec of ROWENC (R133). MAX_ELEMS does not bound ROW (log 26). -/
def rowencResult (fmt : FmtCode) (bpp : Nat) (r : Record) : ExecResult :=
  withConfig fmt bpp fun f =>
    match r with
    | .row row => ifShaped (rowShape row) (.ok [.bytes (encRow f bpp row)])
    | _ => .refuse

/-- ROWENC (R133). -/
def execRowenc (fmt : FmtCode) (bpp : Nat) (s : State) : Host.Outcome State Fault Refusal :=
  accept (rowencResult fmt bpp s.port.ops) s

/-- Exec of TILEDEC (R134). -/
def tiledecResult (fmt : FmtCode) (bpp : Nat) (r : Record) : ExecResult :=
  withConfig fmt bpp fun f =>
    match r with
    | .tile tile => ifShaped (tileShape bpp tile) (.ok [.indices (decTile f bpp tile)])
    | _ => .refuse

/-- TILEDEC (R134). -/
def execTiledec (fmt : FmtCode) (bpp : Nat) (s : State) : Host.Outcome State Fault Refusal :=
  accept (tiledecResult fmt bpp s.port.ops) s

/-- Exec of TILEENC (R135). MAX_ELEMS does not bound TPIX (log 26). -/
def tileencResult (fmt : FmtCode) (bpp : Nat) (r : Record) : ExecResult :=
  withConfig fmt bpp fun f =>
    match r with
    | .tpix tpix => ifShaped (tpixShape tpix) (.ok [.bytes (encTile f bpp tpix)])
    | _ => .refuse

/-- TILEENC (R135). -/
def execTileenc (fmt : FmtCode) (bpp : Nat) (s : State) : Host.Outcome State Fault Refusal :=
  accept (tileencResult fmt bpp s.port.ops) s

end Sys2Proof.Machine
end

