-- ==== Sys2Proof/Machine/Registry.lean ====
section
/-! DEFINITION. The format registry (45_registry.md): CFGCHECK, FMTLOOKUP, FMTNAME, BPPLIST. -/

namespace Sys2Proof.Machine

/-- FORMAT_NAMES[f] (R214). -/
def formatName (params : Params) : Format → String
  | .planar => params.namePlanar
  | .interwined => params.nameInterwined
  | .gba => params.nameGba

/-- The format a name names, compared exactly; the least code where names repeat (R210, R214, log 11). -/
def lookupFormat (params : Params) (name : String) : Option Format :=
  [Format.planar, Format.interwined, Format.gba].find? (fun f => formatName params f == name)

/-- Exec of CFGCHECK (R213): the configuration check alone; nothing is emitted. -/
def cfgcheckResult (fmt : FmtCode) (bpp : Nat) (r : Record) : ExecResult :=
  withConfig fmt bpp fun _ =>
    match r with
    | .empty => .ok []
    | _ => .refuse

/-- CFGCHECK (R213). -/
def execCfgcheck (fmt : FmtCode) (bpp : Nat) (s : State) : Host.Outcome State Fault Refusal :=
  accept (cfgcheckResult fmt bpp s.port.ops) s

/-- Exec of FMTLOOKUP (R210): the name first, then the record shape (R227). A record without a name is refused (log 23),
and so is one with a known name and a surplus field (R90, log 22). -/
def fmtlookupResult (params : Params) (r : Record) : ExecResult :=
  match recordName r with
  | none => .refuse
  | some name =>
    match lookupFormat params name with
    | none => .err .nameUnknown
    | some f => ifShaped (nameShape r) (.ok [.format (formatCode f).toField])

/-- FMTLOOKUP (R210). -/
def execFmtlookup (s : State) : Host.Outcome State Fault Refusal :=
  accept (fmtlookupResult s.params s.port.ops) s

/-- Exec of FMTNAME (R211). -/
def fmtnameResult (params : Params) (fmt : FmtCode) (r : Record) : ExecResult :=
  withFormat fmt fun f =>
    match r with
    | .empty => .ok [.name (formatName params f)]
    | _ => .refuse

/-- FMTNAME (R211). -/
def execFmtname (fmt : FmtCode) (s : State) : Host.Outcome State Fault Refusal :=
  accept (fmtnameResult s.params fmt s.port.ops) s

/-- Exec of BPPLIST (R212): one element per supported bit depth, ascending. -/
def bpplistResult (fmt : FmtCode) (r : Record) : ExecResult :=
  withFormat fmt fun f =>
    match r with
    | .empty => .ok ((bppSet f).map .nat)
    | _ => .refuse

/-- BPPLIST (R212). -/
def execBpplist (fmt : FmtCode) (s : State) : Host.Outcome State Fault Refusal :=
  accept (bpplistResult fmt s.port.ops) s

end Sys2Proof.Machine
end

