-- ==== Sys2Proof/Machine/Geometry.lean ====
section
/-! DEFINITION. The geometry helper (44_geometry.md): IMGHEIGHT, and the walker constants it shares (R7, R160). -/

namespace Sys2Proof.Machine

/-- TILE_W = TILE_H = 8 (R7). -/
def tileSide : Nat := 8

/-- TILES_PER_ROW = 16 (R7). -/
def tilesPerRow : Nat := 16

/-- ceildiv(a, b), for b > 0 (R10). -/
def ceildiv (a b : Nat) : Nat := (a + b - 1) / b

/-- BPT: bytes per tile, bpp × 8 in every format (R120, R160). -/
def bytesPerTile (bpp : Nat) : Nat := bpp * tileSide

/-- BPR: bytes per tile row, the chunk (R160). -/
def bytesPerRow (bpp : Nat) : Nat := bytesPerTile bpp * tilesPerRow

/-- IMGHEIGHT as R200 computes it. -/
def imgHeight (numBytes bpp : Nat) : Nat :=
  let roundedBytes := ceildiv numBytes (bytesPerRow bpp) * bytesPerRow bpp
  roundedBytes / bytesPerTile bpp / tilesPerRow * tileSide

/-- Exec of IMGHEIGHT (R200). -/
def imgheightResult (params : Params) (bpp : Nat) (r : Record) : ExecResult :=
  withBpp bpp <|
    match r with
    | .numBytes n => ifShaped (withinCap params.maxBytes n) (.ok [.nat (imgHeight n bpp)])
    | _ => .refuse

/-- IMGHEIGHT (R200). -/
def execImgheight (bpp : Nat) (s : State) : Host.Outcome State Fault Refusal :=
  accept (imgheightResult s.params bpp s.port.ops) s

end Sys2Proof.Machine
end

