-- ==== Sys2Proof/Machine/TileGrid.lean ====
section
/-! DEFINITION. The tile-grid walker (42_tile_grid.md): SHEETDEC and SHEETENC. -/

namespace Sys2Proof.Machine

/-- avail: the bytes of tile row `r` that the stream holds (R161). -/
def availBytes (bpp r n : Nat) : Nat := min (bytesPerRow bpp) (n - r * bytesPerRow bpp)

/-- numTiles: the whole tiles of tile row `r` (R162). -/
def numTiles (bpp r n : Nat) : Nat := availBytes bpp r n / bytesPerTile bpp

/-- The bytes of tile `t` of tile row `r` (R53, R161). -/
def streamTile (bpp : Nat) (bytes : List Byte) (r t : Nat) : List Byte :=
  slice bytes (r * bytesPerRow bpp + t * bytesPerTile bpp) (bytesPerTile bpp)

/-- The 8 indices that tile `t` of tile row `r` gives pixel row `y`: decoded where the stream holds the whole tile, 0
where it does not (R161, R162). -/
def sheetTileRow (fmt : Format) (bpp : Nat) (bytes : List Byte) (r y t : Nat) : List Nat :=
  if t < numTiles bpp r bytes.length then decRow fmt bpp (streamTile bpp bytes r t) y
  else List.replicate tileSide 0

/-- Pixel row `y` of tile row `r` of the sheet: 128 indices (R161). -/
def sheetRow (fmt : Format) (bpp : Nat) (bytes : List Byte) (r y : Nat) : List Nat :=
  (List.range tilesPerRow).flatMap fun t => sheetTileRow fmt bpp bytes r y t

/-- The rows SHEETDEC emits, top to bottom (R161). -/
def sheetRows (fmt : Format) (bpp : Nat) (bytes : List Byte) : List (List Nat) :=
  (List.range (ceildiv bytes.length (bytesPerRow bpp))).flatMap fun r =>
    (List.range tileSide).map fun y => sheetRow fmt bpp bytes r y

/-- Exec of SHEETDEC (R161). -/
def sheetdecResult (params : Params) (fmt : FmtCode) (bpp : Nat) (r : Record) : ExecResult :=
  withConfig fmt bpp fun f =>
    match r with
    | .bytesIn bytes =>
      ifShaped (withinCap params.maxBytes bytes.length) (.ok ((sheetRows f bpp bytes).map .indices))
    | _ => .refuse

/-- SHEETDEC (R161). -/
def execSheetdec (fmt : FmtCode) (bpp : Nat) (s : State) : Host.Outcome State Fault Refusal :=
  accept (sheetdecResult s.params fmt bpp s.port.ops) s

/-- The 64 indices of the tile at tile row `tr`, tile column `tc` of a grid, row-major (R52, R165). -/
def gridTile (grid : List Nat) (width tr tc : Nat) : List Nat :=
  (List.range tileSide).flatMap fun y =>
    (List.range tileSide).map fun x => readIndex grid ((tileSide * tr + y) * width + tileSide * tc + x)

/-- The tiles SHEETENC emits, left to right, top to bottom (R165). -/
def sheetTiles (fmt : Format) (bpp : Nat) (grid : List Nat) (width height : Nat) : List (List Byte) :=
  (List.range (height / tileSide)).flatMap fun tr =>
    (List.range (width / tileSide)).map fun tc => encTile fmt bpp (gridTile grid width tr tc)

/-- SHEETENC's dimension checks, in order (R165, R223, R227). -/
def checkDims (grid : List Nat) (width height : Nat) : Option CmdError :=
  if width % tileSide ≠ 0 then some .widthNotMultiple
  else if height % tileSide ≠ 0 then some .heightNotMultiple
  else if grid.length ≠ width * height then some .gridLength
  else none

/-- Exec of SHEETENC (R165). -/
def sheetencResult (params : Params) (fmt : FmtCode) (bpp : Nat) (r : Record) : ExecResult :=
  withConfig fmt bpp fun f =>
    match r with
    | .grid grid width height =>
      ifShaped (withinCap params.maxElems grid.length) <|
        match checkDims grid width height with
        | some e => .err e
        | none => .ok ((sheetTiles f bpp grid width height).map .bytes)
    | _ => .refuse

/-- SHEETENC (R165). -/
def execSheetenc (fmt : FmtCode) (bpp : Nat) (s : State) : Host.Outcome State Fault Refusal :=
  accept (sheetencResult s.params fmt bpp s.port.ops) s

end Sys2Proof.Machine
end

