-- ==== Sys2Proof/Machine/Dispatch.lean ====
section
/-! DEFINITION. The one dispatch from commands to their meanings. -/

namespace Sys2Proof.Machine

def exec (i : Instr) (s : State) : Host.Outcome State Fault Refusal :=
  match i with
  | .getbits ww => Sys2Proof.Machine.execGetbits ww s
  | .setbits ww => Sys2Proof.Machine.execSetbits ww s
  | .getbit ww => Sys2Proof.Machine.execGetbit ww s
  | .setbit ww => Sys2Proof.Machine.execSetbit ww s
  | .pixdec fmt bpp => Sys2Proof.Machine.execPixdec fmt bpp s
  | .pixenc fmt bpp => Sys2Proof.Machine.execPixenc fmt bpp s
  | .rowdec fmt bpp => Sys2Proof.Machine.execRowdec fmt bpp s
  | .rowenc fmt bpp => Sys2Proof.Machine.execRowenc fmt bpp s
  | .tiledec fmt bpp => Sys2Proof.Machine.execTiledec fmt bpp s
  | .tileenc fmt bpp => Sys2Proof.Machine.execTileenc fmt bpp s
  | .sheetdec fmt bpp => Sys2Proof.Machine.execSheetdec fmt bpp s
  | .sheetenc fmt bpp => Sys2Proof.Machine.execSheetenc fmt bpp s
  | .matchPix => Sys2Proof.Machine.execMatchPix s
  | .applyPal => Sys2Proof.Machine.execApplyPal s
  | .graypal bpp ch => Sys2Proof.Machine.execGraypal bpp ch s
  | .imgheight bpp => Sys2Proof.Machine.execImgheight bpp s
  | .cfgcheck fmt bpp => Sys2Proof.Machine.execCfgcheck fmt bpp s
  | .fmtlookup => Sys2Proof.Machine.execFmtlookup s
  | .fmtname fmt => Sys2Proof.Machine.execFmtname fmt s
  | .bpplist fmt => Sys2Proof.Machine.execBpplist fmt s

end Sys2Proof.Machine
end

