-- ==== Sys2Proof/Machine/Fetch.lean ====
section
/-! DEFINITION. How a presented transaction is decoded and run (R29), and what each move of the host does (R253). -/

namespace Sys2Proof.Machine

/-- Run the presented transaction: decode its word and execute the command; a reserved word is refused (R29, R88). -/
def runPresented (s : State) : Host.Outcome State Fault Refusal :=
  match decode s.port.word with
  | .ok i => exec i s
  | .error _ => refuseWord s

/-- One move of the host (R253). -/
def hostMove (m : HostMove) (s : State) : Host.Outcome State Fault Refusal :=
  match m with
  | .pass => .next (engineStep s)
  | .issue r => runPresented (presentRequest r s)
  | .reset => .next (resetBlock s)
  | .takeElement => .next (takeElement s)
  | .readStatus => .next (readStatus s)
  | .modifyInput => modifyInput s

/-- The host's next move is to issue the command word `w` with the smallest record of its command. A running command
is abandoned first by reset, since no command is accepted while RUNNING (R250, R256, log 3). -/
def placeWord (w : CmdWord) (s : State) : State :=
  let ready := match s.phase with
    | .running => resetBlock s
    | .idle | .done => s
  let ops := match decode w with
    | .ok i => smallestRecord s.params i
    | .error _ => .empty
  { ready with script := .issue ⟨w, ops⟩ :: s.script }

end Sys2Proof.Machine
end

