-- ==== Sys2Proof/Machine/Step.lean ====
section
/-! DEFINITION. One step of the machine: the host's next move or, where it has none, the engine's step. -/

namespace Sys2Proof.Machine

/-- One step (R29, R31, R253, R261): the host's next move is taken; when the host has none left, the engine's enabled
step is, and where none is enabled nothing changes (log 2, log 4). -/
def step (s : State) : Host.Outcome State Fault Refusal :=
  match s.script with
  | [] => .next (engineStep s)
  | m :: rest => hostMove m (dropMove rest s)

/-- The state in which the very next step issues the command word `w` (log 3). Every row of the table has 32 bits. -/
def State.withFetchWord (s : State) (_nbits w : Nat) : State := placeWord (BitVec.ofNat 32 w) s

end Sys2Proof.Machine
end

