-- ==== Sys2Proof/Machine/Assembler.lean ====
section
/-! DEFINITION. The assembler syntax of R91 for the command word: mnemonic, suffixes, and the word they spell. -/

namespace Sys2Proof.Machine

/-- The mnemonic as R91 and the opcode map write it. -/
def mnemonicText : Mnemonic → String
  | .getbits => "GETBITS"
  | .setbits => "SETBITS"
  | .getbit => "GETBIT"
  | .setbit => "SETBIT"
  | .pixdec => "PIXDEC"
  | .pixenc => "PIXENC"
  | .rowdec => "ROWDEC"
  | .rowenc => "ROWENC"
  | .tiledec => "TILEDEC"
  | .tileenc => "TILEENC"
  | .sheetdec => "SHEETDEC"
  | .sheetenc => "SHEETENC"
  | .matchPix => "MATCH"
  | .applyPal => "APPLY"
  | .graypal => "GRAYPAL"
  | .imgheight => "IMGHEIGHT"
  | .cfgcheck => "CFGCHECK"
  | .fmtlookup => "FMTLOOKUP"
  | .fmtname => "FMTNAME"
  | .bpplist => "BPPLIST"

/-- The operand names of a command, in the order of R89. -/
def operandNames : Mnemonic → List String
  | .getbits => ["word", "start", "n"]
  | .setbits => ["word", "start", "n", "value"]
  | .getbit => ["word", "bit"]
  | .setbit => ["word", "bit", "b"]
  | .pixdec => ["tile", "y", "x"]
  | .pixenc => ["tile", "y", "x", "v"]
  | .rowdec => ["tile", "y"]
  | .rowenc => ["row"]
  | .tiledec => ["tile"]
  | .tileenc => ["tpix"]
  | .sheetdec => ["in"]
  | .sheetenc => ["grid", "width", "height"]
  | .matchPix => ["pix", "pixch", "pal"]
  | .applyPal => ["idx", "pal"]
  | .imgheight => ["numBytes"]
  | .fmtlookup => ["name"]
  | .graypal | .cfgcheck | .fmtname | .bpplist => []

/-- The source's names of operations (R92, aliases). -/
def sourceName : Mnemonic → Option String
  | .sheetdec => some "decodeToIndices"
  | .sheetenc => some "encodeFromIndices"
  | .matchPix => some "matchToIndices"
  | .applyPal => some "applyPalette"
  | .graypal => some "defaultGrayscalePalette"
  | .imgheight => some "imgHeight"
  | .getbits => some "getbits"
  | .setbits => some "setbits"
  | .getbit => some "getbit"
  | .setbit => some "setbit"
  | .pixdec | .pixenc | .rowdec | .rowenc | .tiledec | .tileenc => none
  | .cfgcheck | .fmtlookup | .fmtname | .bpplist => none

/-- A suffix of R91. -/
inductive Suffix where
  | fmt (f : FmtCode)
  | bpp (n : Nat)
  | ch (c : ChCode)
  | width (w : WidthCode)
deriving DecidableEq, Repr

/-- A suffix as written, without its leading dot (R91). -/
def suffixText : Suffix → String
  | .fmt .planar => "P"
  | .fmt .interwined => "I"
  | .fmt .gba => "G"
  | .fmt .reserved => "F3"
  | .bpp n => "bpp" ++ toString n
  | .ch .one => "ch1"
  | .ch .three => "ch3"
  | .ch .four => "ch4"
  | .ch .reserved => "ch?"
  | .width .w8 => "w8"
  | .width .w16 => "w16"
  | .width .w32 => "w32"
  | .width .w64 => "w64"

/-- Every suffix of R91. -/
def allSuffixes : List Suffix :=
  [.fmt .planar, .fmt .interwined, .fmt .gba, .fmt .reserved] ++
    (List.range 16).map .bpp ++
    [.ch .one, .ch .three, .ch .four, .ch .reserved, .width .w8, .width .w16, .width .w32, .width .w64]

/-- The place of a suffix in [.F][.bppN][.chC][.wB] (R91). -/
def suffixRank : Suffix → Nat
  | .fmt _ => 0
  | .bpp _ => 1
  | .ch _ => 2
  | .width _ => 3

/-- Each suffix at most once, in the order of R91. -/
def suffixesOrdered : List Suffix → Bool
  | [] => true
  | [_] => true
  | a :: b :: rest => suffixRank a < suffixRank b && suffixesOrdered (b :: rest)

/-- The FMT field the suffixes give; an omitted suffix leaves it 0 (R91). -/
def suffixFmt (sx : List Suffix) : BitVec 2 :=
  (sx.findSome? fun x => match x with | .fmt f => some f.toField | _ => none).getD 0#2

/-- The BPP field the suffixes give (R91). -/
def suffixBpp (sx : List Suffix) : BitVec 4 :=
  (sx.findSome? fun x => match x with | .bpp n => some (BitVec.ofNat 4 n) | _ => none).getD 0#4

/-- The CH field the suffixes give (R91). -/
def suffixCh (sx : List Suffix) : BitVec 2 :=
  (sx.findSome? fun x => match x with | .ch c => some c.toField | _ => none).getD 0#2

/-- The WW field the suffixes give (R91). -/
def suffixWw (sx : List Suffix) : BitVec 2 :=
  (sx.findSome? fun x => match x with | .width w => some w.toField | _ => none).getD 0#2

/-- The word of a mnemonic with suffixes (R91). -/
def assemble (m : Mnemonic) (sx : List Suffix) : CmdWord :=
  wordOf m.opc (suffixFmt sx) (suffixBpp sx) (suffixCh sx) (suffixWw sx)

/-- The word spelled by a mnemonic and suffix texts (without their dots), if they are of the form of R91. -/
def assembleText (mnemonic : String) (suffixes : List String) : Option CmdWord :=
  match Mnemonic.all.find? (fun m => mnemonicText m == mnemonic) with
  | none => none
  | some m =>
    match suffixes.mapM (fun t => allSuffixes.find? (fun x => suffixText x == t)) with
    | none => none
    | some sx => if suffixesOrdered sx then some (assemble m sx) else none

/-- The suffixes that write a command: one for each field it uses. -/
def instrSuffixes : Instr → List Suffix
  | .getbits ww | .setbits ww | .getbit ww | .setbit ww => [.width ww]
  | .pixdec fmt bpp | .pixenc fmt bpp | .rowdec fmt bpp | .rowenc fmt bpp => [.fmt fmt, .bpp bpp]
  | .tiledec fmt bpp | .tileenc fmt bpp => [.fmt fmt, .bpp bpp]
  | .sheetdec fmt bpp | .sheetenc fmt bpp => [.fmt fmt, .bpp bpp]
  | .matchPix | .applyPal => []
  | .graypal bpp ch => [.bpp bpp, .ch ch]
  | .imgheight bpp => [.bpp bpp]
  | .cfgcheck fmt bpp => [.fmt fmt, .bpp bpp]
  | .fmtlookup => []
  | .fmtname fmt | .bpplist fmt => [.fmt fmt]

/-- A command as written, without its operands (R91). -/
def asmText (i : Instr) : String :=
  (instrSuffixes i).foldl (fun t x => t ++ "." ++ suffixText x) (mnemonicText i.mnemonic)

end Sys2Proof.Machine
end

