-- ==== Sys2Proof/Machine/HostPaths.lean ====
section
/-! DEFINITION. The two host sequences of R92, as compositions of command results. They are not commands: the host issues
the commands and carries each OUT into the next record. -/

namespace Sys2Proof.Machine

/-- The host's next command takes the elements of the one before; an error or a refusal ends the sequence (R92). -/
def andThen (r : ExecResult) (k : List Element → ExecResult) : ExecResult :=
  match r with
  | .ok elements => k elements
  | .err e => .err e
  | .refuse => .refuse

/-- The indices of index elements, concatenated ("rows concatenated", R92). -/
def elementIndices (elements : List Element) : List Nat :=
  elements.flatMap fun e =>
    match e with
    | .indices is => is
    | .index i => [i]
    | _ => []

/-- The colours of colour elements, in order. -/
def elementColours (elements : List Element) : List Colour :=
  elements.flatMap fun e =>
    match e with
    | .colour c => [c]
    | _ => []

/-- APPLY with the supplied palette, or with GRAYPAL's where none is supplied (R92, R191). -/
def applyWithPalette (params : Params) (bpp : Nat) (ch : ChCode) (pal : Option Palette) (idx : List Nat) : ExecResult :=
  match pal with
  | some p => applyResult params (.idxPal idx p)
  | none =>
    andThen (graypalResult bpp ch .empty) fun cs =>
      match channelsOf ch with
      | some channels => applyResult params (.idxPal idx ⟨channels, elementColours cs⟩)
      | none => .err .channelsReserved

/-- DECODE_PATH (R92): IMGHEIGHT, SHEETDEC, the palette, APPLY. The composition is a DESIGN CHOICE, safe (log 25). -/
def decodePath (params : Params) (fmt : FmtCode) (bpp : Nat) (ch : ChCode) (pal : Option Palette)
    (bytes : List Byte) : ExecResult :=
  andThen (imgheightResult params bpp (.numBytes bytes.length)) fun _ =>
    andThen (sheetdecResult params fmt bpp (.bytesIn bytes)) fun rows =>
      applyWithPalette params bpp ch pal (elementIndices rows)

/-- ENCODE_PATH (R92): MATCH, SHEETENC. The composition is a DESIGN CHOICE, safe (log 25). -/
def encodePath (params : Params) (fmt : FmtCode) (bpp : Nat) (raster : List Colour) (pixch width height : Nat)
    (pal : Palette) : ExecResult :=
  andThen (matchResult params (.pixPal raster pixch pal)) fun idx =>
    sheetencResult params fmt bpp (.grid (elementIndices idx) width height)

end Sys2Proof.Machine
end

