-- ==== Sys2Proof/Safety.lean ====
section
/-! DEFINITION. The terms claims use: the states a command's acceptance leads to, written out field by field, the results a
command can end with (R226), and the invariant of the block. -/

namespace Sys2Proof.Machine

/-- A command can be accepted: PHASE is IDLE or DONE (R29). -/
abbrev Ready (s : State) : Prop := s.phase ≠ .running

/-- The presented command accepted with a non-empty list of elements to emit (R29). All other fields are as before. -/
def startedWith (elements : List Element) (s : State) : State :=
  { s with
    phase := .running
    cmd := s.port.word
    ops := some s.port.ops
    result := 0x0000000F#32
    resultPos := 0
    resultVal := 0
    out := []
    pending := elements
    cur := 0
    total := elements.length
    taken := 0 }

/-- The presented command completed OK at acceptance, with nothing to emit (R29). -/
def completedEmpty (s : State) : State :=
  { s with
    phase := .done
    cmd := s.port.word
    ops := some s.port.ops
    result := 0x00000000#32
    resultPos := 0
    resultVal := 0
    out := []
    pending := []
    cur := 0
    total := 0
    taken := 0 }

/-- The presented command completed with an error at acceptance (R29, R228). TOTAL is as before (log 9). -/
def failedWith (code sub : BitVec 4) (pos val : Nat) (s : State) : State :=
  { s with
    phase := .done
    cmd := s.port.word
    ops := some s.port.ops
    result := 0x000000#24 ++ sub ++ code
    resultPos := pos
    resultVal := val
    out := []
    pending := []
    cur := 0
    taken := 0 }

/-- The presented transaction refused: only the refusal mark is set (R233). -/
def refusedState (s : State) : State := { s with refused := true }

/-- `k` steps, stopping at the first fault or refusal. -/
def runSteps (k : Nat) (s : State) : Host.Outcome State Fault Refusal :=
  match k with
  | 0 => .next s
  | k + 1 =>
    match step s with
    | .next t => runSteps k t
    | .fault f => .fault f
    | .refused r => .refused r

/-- The name of a FMTLOOKUP record is known; a record without one has none to check (R227, log 23). -/
abbrev nameLegal (params : Params) (r : Record) : Bool :=
  match recordName r with
  | none => true
  | some name => (lookupFormat params name).isSome

/-- The configuration of a command is legal, for FMTLOOKUP the name in its record, so that the shape of its record is
looked at (R222, R227). -/
abbrev configLegal (params : Params) (r : Record) : Instr → Bool
  | .getbits _ | .setbits _ | .getbit _ | .setbit _ => true
  | .pixdec fmt bpp | .pixenc fmt bpp | .rowdec fmt bpp | .rowenc fmt bpp => (checkCfg fmt bpp).toOption.isSome
  | .tiledec fmt bpp | .tileenc fmt bpp | .sheetdec fmt bpp | .sheetenc fmt bpp => (checkCfg fmt bpp).toOption.isSome
  | .cfgcheck fmt bpp => (checkCfg fmt bpp).toOption.isSome
  | .matchPix | .applyPal => true
  | .fmtlookup => nameLegal params r
  | .graypal bpp ch => bppInRange bpp && (channelsOf ch).isSome
  | .imgheight bpp => bppInRange bpp
  | .fmtname fmt | .bpplist fmt => (formatOf fmt).isSome

/-- The record has exactly the fields of the command (R89), whatever their values. -/
abbrev takesRecord : Instr → Record → Bool
  | .getbits _, .wordStartN _ _ _ => true
  | .setbits _, .wordStartNValue _ _ _ _ => true
  | .getbit _, .wordBit _ _ => true
  | .setbit _, .wordBitB _ _ _ => true
  | .pixdec _ _, .tileYX _ _ _ => true
  | .pixenc _ _, .tileYXV _ _ _ _ => true
  | .rowdec _ _, .tileY _ _ => true
  | .rowenc _ _, .row _ => true
  | .tiledec _ _, .tile _ => true
  | .tileenc _ _, .tpix _ => true
  | .sheetdec _ _, .bytesIn _ => true
  | .sheetenc _ _, .grid _ _ _ => true
  | .matchPix, .pixPal _ _ _ => true
  | .applyPal, .idxPal _ _ => true
  | .graypal _ _, .empty => true
  | .imgheight _, .numBytes _ => true
  | .cfgcheck _ _, .empty => true
  | .fmtlookup, .name _ => true
  | .fmtname _, .empty => true
  | .bpplist _, .empty => true
  | _, _ => false

/-- The (CODE, SUB) pairs a command can end with (R226). -/
def allowedResults : Instr → List (BitVec 4 × BitVec 4)
  | .getbits _ | .setbits _ | .getbit _ | .setbit _ => [(0, 0)]
  | .pixdec _ _ | .pixenc _ _ | .rowdec _ _ | .rowenc _ _ | .tiledec _ _ | .tileenc _ _ => [(0, 0), (1, 0), (1, 1), (1, 2)]
  | .sheetdec _ _ => [(0, 0), (1, 0), (1, 1), (1, 2)]
  | .sheetenc _ _ => [(0, 0), (1, 0), (1, 1), (1, 2), (2, 0), (2, 1), (2, 2)]
  | .matchPix => [(0, 0), (3, 0), (3, 1)]
  | .applyPal => [(0, 0), (4, 0)]
  | .graypal _ _ => [(0, 0), (1, 0), (1, 3)]
  | .imgheight _ => [(0, 0), (1, 0)]
  | .cfgcheck _ _ => [(0, 0), (1, 0), (1, 1), (1, 2)]
  | .fmtlookup => [(0, 0), (1, 4)]
  | .fmtname _ | .bpplist _ => [(0, 0), (1, 2)]

/-- CMD holds a command word and a RESULT its command can end with: the code and sub-cause of R226, reserved bits 0 (R25). -/
def resultFitsCommand (cmd : CmdWord) (result : BitVec 32) : Bool :=
  match decode cmd with
  | .ok i => (allowedResults i).any fun p => result == packResult p.1 p.2
  | .error _ => false

/-- In IDLE everything but CMD is as R35 says. -/
abbrev IdleInv (s : State) : Prop :=
  s.ops = none ∧ s.result = 0x0000000F#32 ∧ s.resultPos = 0 ∧ s.resultVal = 0 ∧
    s.out = [] ∧ s.pending = [] ∧ s.cur = 0 ∧ s.total = 0

/-- While RUNNING a decodable command and its record are latched, RESULT reads NONE, and CUR of TOTAL elements are on
OUT with the rest pending (R23, R25, R32). -/
abbrev RunningInv (s : State) : Prop :=
  s.ops.isSome = true ∧ (decode s.cmd).toOption.isSome = true ∧
    s.result = 0x0000000F#32 ∧ s.resultPos = 0 ∧ s.resultVal = 0 ∧
    s.pending ≠ [] ∧ s.cur = s.out.length ∧ s.cur + s.pending.length = s.total

/-- In DONE nothing is pending and RESULT is one the latched command can end with; with OK all TOTAL elements are on OUT,
with an error none is (R30, R32, R226, R229). -/
abbrev DoneInv (s : State) : Prop :=
  s.ops.isSome = true ∧ resultFitsCommand s.cmd s.result = true ∧ s.pending = [] ∧ s.cur = s.out.length ∧
    (resultCode s.result = 0#4 → s.cur = s.total ∧ s.resultPos = 0) ∧
    (resultCode s.result ≠ 0#4 → s.out = []) ∧
    (resultCode s.result ≠ 4#4 → s.resultVal = 0)

/-- The invariant of the block. The host never has read more of OUT than has appeared. -/
abbrev BlockInv (s : State) : Prop :=
  s.taken ≤ s.out.length ∧ (s.phase = .idle → IdleInv s) ∧ (s.phase = .running → RunningInv s) ∧
    (s.phase = .done → DoneInv s)

end Sys2Proof.Machine
end

