-- ==== Sys2Proof/Certificates/Slice0/Obligations.lean ====
section
/-! DEFINITION. The statements of the model, from the numbered rules of spec/. -/

open Sys2Proof Sys2Proof.Machine

/-! ### The command word -/

/-- R81, R87, R88, R91: decoding the word of a well-formed command gives the command back, for every command and every
value of every field. -/
def Obligations.DecodeOfEncodeIsIdentity : Prop :=
  ∀ i : Instr, i.wf = true → decode (encode i) = .ok i

/-- R87, R88, R91: a word that decodes decodes to a well-formed command whose word it is; no bit of it is dropped. -/
def Obligations.EncodeOfDecodeIsIdentity : Prop :=
  ∀ (w : CmdWord) (i : Instr), decode w = .ok i → i.wf = true ∧ encode i = w

/-- R87, R88: a word decodes to a command of an operation exactly when (cw & mask) = match for the operation's row of
the opcode map. So at most one row matches a word, and a word that matches none decodes to nothing. -/
def Obligations.DecodeFollowsTheOpcodeMap : Prop :=
  ∀ (w : CmdWord) (m : Mnemonic), m.selects w = true ↔ ∃ i, decode w = .ok i ∧ i.mnemonic = m

/-- R91, R88: the example words of the assembler syntax, one reserved word, and the illegal field values that decode. -/
def Obligations.ExampleWordsDecode : Prop :=
  decode 0x00000820#32 = .ok (.sheetdec .planar 2) ∧
  decode 0x00001221#32 = .ok (.sheetenc .gba 4) ∧
  decode 0x00001213#32 = .ok (.rowenc .gba 4) ∧
  decode 0x00000840#32 = .ok (.imgheight 2) ∧
  decode 0x00008832#32 = .ok (.graypal 2 .four) ∧
  decode 0x00030001#32 = .ok (.getbits .w64) ∧
  decode 0x00001650#32 = .ok (.cfgcheck .gba 5) ∧
  decode 0x00000320#32 = .ok (.sheetdec .reserved 0) ∧
  decode 0x00000006#32 = .error .unassignedOpcode ∧
  decode 0x00040001#32 = .error .reservedBits ∧
  decode 0x00004820#32 = .error .unusedField

/-! ### Reset, the step, the host -/

/-- R35, R25: the state after reset. CMD, which R35 leaves unspecified, is not spoken of. -/
def Obligations.ResetLeavesTheBlockIdle : Prop :=
  let s := State.reset
  s.phase = .idle ∧ s.ops = none ∧ resultCode s.result = 15#4 ∧ resultSub s.result = 0#4 ∧
    s.result.extractLsb' 8 24 = 0#24 ∧ s.resultPos = 0 ∧ s.resultVal = 0 ∧
    s.out = [] ∧ s.pending = [] ∧ s.cur = 0 ∧ s.total = 0 ∧ s.refused = false

/-- R250: whatever the block is doing, reset sets every piece of its state to the value of R35 (CMD to some value); the
refusal mark stays as it was. That the host's own side (its script, its readings) and the parameters stay is the
model's choice (log 18). -/
def Obligations.HostResetRestoresTheResetState : Prop :=
  ∀ (s : State) (rest : List HostMove), s.script = .reset :: rest →
    ∃ c : CmdWord, step s = .next
      { s with
        script := rest
        phase := .idle
        cmd := c
        ops := none
        result := 0x0000000F#32
        resultPos := 0
        resultVal := 0
        out := []
        pending := []
        cur := 0
        total := 0
        taken := 0 }

/-- R29: when the host's next move presents a word that decodes to a command, the step is exec of that command in the
state in which the transaction is presented and the move is used up. -/
def Obligations.StepRunsTheDecodedCommand : Prop :=
  ∀ (s : State) (r : Request) (rest : List HostMove) (i : Instr),
    s.script = .issue r :: rest → decode r.word = .ok i →
      step s = exec i { s with port := r, script := rest }

/-- R88, R233 (a): a reserved word presented in IDLE or DONE changes no architectural state; the refusal mark is set
and the run goes on. -/
def Obligations.ReservedWordIsRefused : Prop :=
  ∀ (s : State) (r : Request) (rest : List HostMove) (e : Reject),
    s.script = .issue r :: rest → decode r.word = .error e → Ready s →
      step s = .next { s with port := r, script := rest, refused := true }

/-- R256, R29: a command issued while RUNNING has no move: every command, whatever its record, and every reserved word
stops with the fault of that name. That the missing move is a fault is the model's choice (log 5). -/
def Obligations.IssueWhileRunningHasNoMove : Prop :=
  ∀ s : State, s.phase = .running →
    (∀ i : Instr, exec i s = .fault .issueWhileRunning) ∧
    (∀ (r : Request) (rest : List HostMove), s.script = .issue r :: rest → step s = .fault .issueWhileRunning)

/-- R31, R30: the engine's one step: while RUNNING with e :: rest pending it emits e, and with rest empty it completes
OK; it is taken when the host passes or has no move left. In IDLE and DONE no step is enabled and nothing changes (that
this is a next state is the model's choice, log 4). -/
def Obligations.EngineStepEmitsOneElement : Prop :=
  ∀ s : State,
    (∀ e rest, s.phase = .running → s.pending = e :: rest →
      (s.script = [] → step s = .next
        (if rest = [] then
          { s with
            out := s.out ++ [e], pending := [], cur := s.cur + 1
            result := 0x00000000#32, resultPos := 0, resultVal := 0, phase := .done }
        else { s with out := s.out ++ [e], pending := rest, cur := s.cur + 1 })) ∧
      (∀ ms, s.script = .pass :: ms → step s = .next
        (if rest = [] then
          { s with
            script := ms, out := s.out ++ [e], pending := [], cur := s.cur + 1
            result := 0x00000000#32, resultPos := 0, resultVal := 0, phase := .done }
        else { s with script := ms, out := s.out ++ [e], pending := rest, cur := s.cur + 1 }))) ∧
    (s.phase ≠ .running →
      (s.script = [] → step s = .next s) ∧
      (∀ ms, s.script = .pass :: ms → step s = .next { s with script := ms }))

/-- R261: left to itself, a RUNNING command completes OK after exactly as many steps as it has elements pending, with
all of them on OUT in order, and not before. -/
def Obligations.RunningCommandCompletes : Prop :=
  ∀ s : State, s.phase = .running → s.script = [] → s.pending ≠ [] →
    runSteps s.pending.length s = .next
      { s with
        out := s.out ++ s.pending
        pending := []
        cur := s.cur + s.pending.length
        result := 0x00000000#32
        resultPos := 0
        resultVal := 0
        phase := .done } ∧
    ∀ k, k < s.pending.length → runSteps k s = .next
      { s with out := s.out ++ s.pending.take k, pending := s.pending.drop k, cur := s.cur + k }

/-- R253, R257: the host's reads. It reads the status registers at any time; it gets each element of OUT once, in order;
neither read changes the block. How readings are recorded is the model's choice (log 16). -/
def Obligations.HostReadsLeaveTheBlockAlone : Prop :=
  ∀ (s : State) (rest : List HostMove),
    (s.script = .readStatus :: rest → step s = .next
      { s with
        script := rest
        seen := s.seen ++ [.status (match s.phase with | .idle => 0#2 | .running => 1#2 | .done => 2#2)
          s.result s.resultPos s.resultVal] }) ∧
    (s.script = .takeElement :: rest →
      (∀ e, s.out[s.taken]? = some e → step s = .next
        { s with script := rest, taken := s.taken + 1, seen := s.seen ++ [.element e] }) ∧
      (s.out.length ≤ s.taken → step s = .next { s with script := rest }))

/-- R254, I10: the model has no move in which an input buffer changes while RUNNING; at other times it is no concern of the
block. That the missing move is a fault is the model's choice (log 6). -/
def Obligations.InputChangeWhileRunningHasNoMove : Prop :=
  ∀ (s : State) (rest : List HostMove), s.script = .modifyInput :: rest →
    (s.phase = .running → step s = .fault .inputModifiedWhileRunning) ∧
    (Ready s → step s = .next { s with script := rest })

/-! ### Whole-machine rules -/

/-- R22 to R32, R226, R229: every step keeps the invariant of the block (Safety.BlockInv): IDLE is the reset state, RUNNING has a
latched command, RESULT = NONE and CUR of TOTAL elements emitted, DONE has a RESULT its command can end with, complete
output with OK and none with an error. -/
def Obligations.EveryStepKeepsTheBlockInvariant : Prop :=
  ∀ s t : State, BlockInv s → step s = .next t → BlockInv t

/-- The invariant of the block holds after reset (R35). -/
def Obligations.ResetMeetsTheBlockInvariant : Prop :=
  BlockInv State.reset

/-- R233, R35, R8: the refusal mark, once set, stays set, reset or not; no step writes the parameters. -/
def Obligations.RefusalMarkAndParametersPersist : Prop :=
  ∀ s t : State, step s = .next t → t.params = s.params ∧ (s.refused = true → t.refused = true)

/-- R62 (b), R28: no step but a command's acceptance or a reset changes an element already on OUT: OUT only gets longer, by
one element at most. -/
def Obligations.EmittedElementsNeverChange : Prop :=
  ∀ s t : State, step s = .next t →
    (∃ r rest, s.script = .issue r :: rest) ∨ (∃ rest, s.script = .reset :: rest) ∨
      t.out = s.out ∨ ∃ e, t.out = s.out ++ [e]

/-- The frame of every command (R29, R30, R228, R229): a refusal sets the refusal mark and nothing else; an accepted
command latches CMD and OPS, starts with OUT empty and CUR 0, and either runs with RESULT = NONE and something to emit
or is done with nothing pending; the refusal mark, the parameters, the presented transaction (the input buffers among
it), the host's script and its readings are as before. TOTAL is the count of elements to emit where the command runs and
0 where it completes OK with none; that it keeps its old value after an error is the model's reading of R29 and R228,
which R32 could be read against (log 9). -/
def Obligations.CommandFrame : Prop :=
  ∀ (i : Instr) (s t : State), exec i s = .next t →
    t = { s with refused := true } ∨
    (t.cmd = s.port.word ∧ t.ops = some s.port.ops ∧ t.out = [] ∧ t.cur = 0 ∧ t.taken = 0 ∧
      t.refused = s.refused ∧ t.params = s.params ∧ t.port = s.port ∧ t.script = s.script ∧ t.seen = s.seen ∧
      ((t.phase = .running ∧ t.pending ≠ [] ∧ t.total = t.pending.length ∧ t.result = 0x0000000F#32 ∧
          t.resultPos = 0 ∧ t.resultVal = 0) ∨
        (t.phase = .done ∧ t.pending = [] ∧ resultCode t.result ≠ 15#4 ∧
          (resultCode t.result = 0#4 → t.total = 0 ∧ t.resultPos = 0 ∧ t.resultVal = 0) ∧
          (resultCode t.result ≠ 0#4 → t.total = s.total))))

/-- R226: a command that completes at acceptance ends with a code and sub-cause that the table allows it; one that
runs completes OK (EngineStepEmitsOneElement). -/
def Obligations.CommandsEndOnlyAsTheTableSays : Prop :=
  ∀ (i : Instr) (s t : State), exec i s = .next t →
    t = { s with refused := true } ∨ t.phase = .running ∨
      ∃ p ∈ allowedResults i, t.result = 0#24 ++ p.2 ++ p.1

/-- R62 (e): what a command does depends only on the word, the record and the parameters: in two states in which the same
transaction is presented, either both refuse it or both give the same output, result, phase and latches. TOTAL after
an error is not spoken of (log 9). -/
def Obligations.OutcomeDependsOnlyOnTheTransaction : Prop :=
  ∀ (i : Instr) (s s' : State), Ready s → Ready s' → s.port = s'.port → s.params = s'.params →
    (exec i s = .next { s with refused := true } ∧ exec i s' = .next { s' with refused := true }) ∨
    ∃ t t', exec i s = .next t ∧ exec i s' = .next t' ∧ t.phase = t'.phase ∧ t.cmd = t'.cmd ∧ t.ops = t'.ops ∧
      t.result = t'.result ∧ t.resultPos = t'.resultPos ∧ t.resultVal = t'.resultVal ∧ t.out = t'.out ∧
      t.pending = t'.pending ∧ t.cur = t'.cur

/-- R89, R90, R8: with a legal configuration every command refuses a record that has not exactly its fields, a byte
stream or byte count above MAX_BYTES, and a grid, index sequence or pixel sequence above MAX_ELEMS (that the bound holds
for pixels is read from R8, log 17). That a surplus field is refused, as a missing one is, rests on log 22. For FMTLOOKUP
a legal configuration is a known name, be there a surplus field or not (R227); a record without a name is refused
(log 23). -/
def Obligations.ForeignOrOversizeRecordIsRefused : Prop :=
  ∀ (i : Instr) (s : State), Ready s → configLegal s.params s.port.ops i = true →
    (takesRecord i s.port.ops = false → exec i s = .next { s with refused := true }) ∧
    (∀ cap, s.params.maxBytes = some cap →
      (∃ bytes, s.port.ops = .bytesIn bytes ∧ cap < bytes.length) ∨ (∃ n, s.port.ops = .numBytes n ∧ cap < n) →
      exec i s = .next { s with refused := true }) ∧
    (∀ cap, s.params.maxElems = some cap →
      (∃ g w h, s.port.ops = .grid g w h ∧ cap < g.length) ∨ (∃ idx pal, s.port.ops = .idxPal idx pal ∧ cap < idx.length) ∨
        (∃ pix n pal, s.port.ops = .pixPal pix n pal ∧ cap < pix.length) →
      exec i s = .next { s with refused := true })

/-! ### Configuration -/

/-- R222, R227: the nine commands with FMT and BPP report FMT = 3, then a BPP outside 1..8, then a (format, bpp) pair
that is not supported, whatever the record. -/
def Obligations.IllegalConfigurationIsReported : Prop :=
  ∀ (s : State) (fmt : FmtCode) (bpp : Nat), Ready s →
    ∀ i ∈ [Instr.pixdec fmt bpp, .pixenc fmt bpp, .rowdec fmt bpp, .rowenc fmt bpp, .tiledec fmt bpp,
        .tileenc fmt bpp, .sheetdec fmt bpp, .sheetenc fmt bpp, .cfgcheck fmt bpp],
      (fmt = .reserved → exec i s = .next (failedWith 1 2 0 0 s)) ∧
      (fmt ≠ .reserved → bpp < 1 ∨ 8 < bpp → exec i s = .next (failedWith 1 0 0 0 s)) ∧
      (fmt = .gba → 1 ≤ bpp → bpp ≤ 8 → bpp ≠ 4 → bpp ≠ 8 → exec i s = .next (failedWith 1 1 0 0 s))

/-! ### Bitfield primitives -/

/-- R100, R104: GETBITS emits the field: bit k of the value is bit start + k of the word for k < n, and 0 above. Bits at
positions at or above W are bits of a number below 2^W, so they are 0. -/
def Obligations.GetbitsEmitsTheField : Prop :=
  ∀ (ww : WidthCode) (word start n : Nat) (s : State), Ready s → s.port.ops = .wordStartN word start n →
    word < 2 ^ widthBits ww → start ≤ 64 → n ≤ 64 →
    ∃ v, exec (.getbits ww) s = .next (startedWith [.word v] s) ∧
      ∀ k, v.testBit k = (decide (k < n) && word.testBit (start + k))

/-- R101, R104: SETBITS emits the word with bits [start, start + n) below W replaced by the low bits of the value; no
other bit changes, and the result is below 2^W. -/
def Obligations.SetbitsReplacesOnlyTheField : Prop :=
  ∀ (ww : WidthCode) (word start n value : Nat) (s : State), Ready s →
    s.port.ops = .wordStartNValue word start n value →
    word < 2 ^ widthBits ww → start ≤ 64 → n ≤ 64 → value < 2 ^ 64 →
    ∃ v, exec (.setbits ww) s = .next (startedWith [.word v] s) ∧ v < 2 ^ widthBits ww ∧
      ∀ k, k < widthBits ww →
        v.testBit k = if start ≤ k ∧ k < start + n then value.testBit (k - start) else word.testBit k

/-- R102: GETBIT emits 1 where the bit is set and 0 where it is not. -/
def Obligations.GetbitEmitsTheBit : Prop :=
  ∀ (ww : WidthCode) (word bit : Nat) (s : State), Ready s → s.port.ops = .wordBit word bit →
    word < 2 ^ widthBits ww → bit ≤ 64 →
    exec (.getbit ww) s = .next (startedWith [.word (if word.testBit bit then 1 else 0)] s)

/-- R103: SETBIT emits the word with that bit replaced by bit 0 of b, and leaves it alone where bit >= W. -/
def Obligations.SetbitReplacesOneBit : Prop :=
  ∀ (ww : WidthCode) (word bit b : Nat) (s : State), Ready s → s.port.ops = .wordBitB word bit b →
    word < 2 ^ widthBits ww → bit ≤ 64 → b < 2 ^ 64 →
    ∃ v, exec (.setbit ww) s = .next (startedWith [.word v] s) ∧ v < 2 ^ widthBits ww ∧
      ∀ k, k < widthBits ww → v.testBit k = if k = bit then b.testBit 0 else word.testBit k

/-- R105: the laws of the four commands, in contract, as laws of the values they emit. -/
def Obligations.BitfieldLaws : Prop :=
  ∀ w word start n v : Nat, word < 2 ^ w → start + n ≤ w →
    getBits (setBits w word start n v) start n = v % 2 ^ n ∧
    setBits w word start n (getBits word start n) = word ∧
    (∀ start' n' v', start' + n' ≤ w → start + n ≤ start' ∨ start' + n' ≤ start →
      setBits w (setBits w word start n v) start' n' v' = setBits w (setBits w word start' n' v') start n v) ∧
    (∀ bit, bit < w → getBit word bit = getBits word bit 1 ∧ setBit w word bit v = setBits w word bit 1 v)

/-- R89, R90 (I2): a bitfield record with a word of more than W bits, a position above 64, or a value of more than 64 bits
is refused. -/
def Obligations.BitfieldRangesAreRefused : Prop :=
  ∀ (ww : WidthCode) (word start n value : Nat) (s : State), Ready s →
    (s.port.ops = .wordStartN word start n → 2 ^ widthBits ww ≤ word ∨ 64 < start ∨ 64 < n →
      exec (.getbits ww) s = .next { s with refused := true }) ∧
    (s.port.ops = .wordStartNValue word start n value →
      2 ^ widthBits ww ≤ word ∨ 64 < start ∨ 64 < n ∨ 2 ^ 64 ≤ value →
      exec (.setbits ww) s = .next { s with refused := true }) ∧
    (s.port.ops = .wordBit word start → 2 ^ widthBits ww ≤ word ∨ 64 < start →
      exec (.getbit ww) s = .next { s with refused := true }) ∧
    (s.port.ops = .wordBitB word start value → 2 ^ widthBits ww ≤ word ∨ 64 < start ∨ 2 ^ 64 ≤ value →
      exec (.setbit ww) s = .next { s with refused := true })

/-! ### Pixel codec -/

/-- R126: the row-byte offsets, and that for every legal pair they map rows and row bytes one-to-one onto the bytes of the tile. -/
def Obligations.RowOffsetsCoverTheTileOnce : Prop :=
  (∀ bpp y j, rowOff .planar bpp y j = y + 8 * j) ∧
  (∀ bpp y j, j < 2 * (bpp / 2) → rowOff .interwined bpp y j = 16 * (j / 2) + 2 * y + j % 2) ∧
  (∀ bpp y j, 2 * (bpp / 2) ≤ j → rowOff .interwined bpp y j = 16 * (bpp / 2) + y) ∧
  (∀ bpp y j, rowOff .gba bpp y j = bpp * y + j) ∧
  (∀ y x, rowOff .gba 8 y x = 8 * y + x ∧ rowOff .gba 4 y (x / 2) = 4 * y + x / 2) ∧
  ∀ (f : Format) (bpp : Nat), legalPair f bpp = true →
    (∀ y j, y < 8 → j < bpp → rowOff f bpp y j < bpp * 8) ∧
    (∀ o, o < bpp * 8 → ∃ y j, y < 8 ∧ j < bpp ∧ rowOff f bpp y j = o ∧
      ∀ y' j', y' < 8 → j' < bpp → rowOff f bpp y' j' = o → y' = y ∧ j' = j)

/-- R122, R130: PIXDEC on Planar: index bit i of pixel (y, x) is TILE[y + 8i][7 - x]. -/
def Obligations.PixdecReadsPlanarPlanes : Prop :=
  ∀ (bpp y x : Nat) (tile : List Byte) (s : State), Ready s → s.port.ops = .tileYX tile y x →
    1 ≤ bpp → bpp ≤ 8 → tile.length = bpp * 8 → y < 8 → x < 8 →
    ∃ v, exec (.pixdec .planar bpp) s = .next (startedWith [.index v] s) ∧ v < 2 ^ bpp ∧
      ∀ i, i < bpp → v.testBit i = (tile.getD (y + 8 * i) 0).getLsbD (7 - x)

/-- R123, R130: PIXDEC on Interwined: planes 2p and 2p + 1 are the bytes at 16p + 2y and 16p + 2y + 1; an odd last plane is
the byte at 16K + y. -/
def Obligations.PixdecReadsInterwinedPairs : Prop :=
  ∀ (bpp y x : Nat) (tile : List Byte) (s : State), Ready s → s.port.ops = .tileYX tile y x →
    1 ≤ bpp → bpp ≤ 8 → tile.length = bpp * 8 → y < 8 → x < 8 →
    ∃ v, exec (.pixdec .interwined bpp) s = .next (startedWith [.index v] s) ∧ v < 2 ^ bpp ∧
      (∀ p, p < bpp / 2 →
        v.testBit (2 * p) = (tile.getD (16 * p + 2 * y) 0).getLsbD (7 - x) ∧
        v.testBit (2 * p + 1) = (tile.getD (16 * p + 2 * y + 1) 0).getLsbD (7 - x)) ∧
      (bpp % 2 = 1 → v.testBit (bpp - 1) = (tile.getD (16 * (bpp / 2) + y) 0).getLsbD (7 - x))

/-- R124, R125, R130: PIXDEC on GBA: the whole byte at 8y + x at 8bpp; at 4bpp the low nibble of the byte at 4y + x div 2
for even x and the high nibble for odd x. -/
def Obligations.PixdecReadsGbaPixels : Prop :=
  ∀ (y x : Nat) (tile : List Byte) (s : State), Ready s → s.port.ops = .tileYX tile y x → y < 8 → x < 8 →
    (tile.length = 64 → exec (.pixdec .gba 8) s = .next (startedWith [.index (tile.getD (8 * y + x) 0).toNat] s)) ∧
    (tile.length = 32 → exec (.pixdec .gba 4) s = .next (startedWith
      [.index (if x % 2 = 0 then (tile.getD (4 * y + x / 2) 0).toNat % 16 else (tile.getD (4 * y + x / 2) 0).toNat / 16)]
      s))

/-- R131, R136: PIXENC emits a copy of the tile in which pixel (y, x) decodes to the low bpp bits of v and every other
pixel decodes as before. -/
def Obligations.PixencChangesOnePixel : Prop :=
  ∀ (f : Format) (bpp y x v : Nat) (tile : List Byte) (s : State), Ready s → s.port.ops = .tileYXV tile y x v →
    legalPair f bpp = true → tile.length = bpp * 8 → y < 8 → x < 8 →
    ∃ t : List Byte, exec (.pixenc (formatCode f) bpp) s = .next (startedWith [.bytes t] s) ∧ t.length = bpp * 8 ∧
      ∀ y' x', y' < 8 → x' < 8 →
        decPix f bpp t y' x' = if y' = y ∧ x' = x then v % 2 ^ bpp else decPix f bpp tile y' x'

/-- R132: ROWDEC emits the 8 indices of the row, left to right, as one element. -/
def Obligations.RowdecEmitsEightIndices : Prop :=
  ∀ (f : Format) (bpp y : Nat) (tile : List Byte) (s : State), Ready s → s.port.ops = .tileY tile y →
    legalPair f bpp = true → tile.length = bpp * 8 → y < 8 →
    exec (.rowdec (formatCode f) bpp) s = .next (startedWith
      [.indices [decPix f bpp tile y 0, decPix f bpp tile y 1, decPix f bpp tile y 2, decPix f bpp tile y 3,
        decPix f bpp tile y 4, decPix f bpp tile y 5, decPix f bpp tile y 6, decPix f bpp tile y 7]] s)

/-- R128, R133, R136: ROWENC on Planar and Interwined: bit 7 - x of the byte of plane i is bit i of index x; higher
index bits are not stored. That MAX_ELEMS, however small, bounds no ROW is the model's choice (log 26). -/
def Obligations.RowencBuildsPlaneBytes : Prop :=
  ∀ (f : Format) (bpp : Nat) (row : List Nat) (s : State), Ready s → s.port.ops = .row row → f ≠ .gba →
    legalPair f bpp = true → row.length = 8 →
    ∃ b : List Byte, exec (.rowenc (formatCode f) bpp) s = .next (startedWith [.bytes b] s) ∧ b.length = bpp ∧
      ∀ i x, i < bpp → x < 8 → (b.getD i 0).getLsbD (7 - x) = (row.getD x 0).testBit i

/-- R125, R128, R133, R136: ROWENC on GBA: one byte per index at 8bpp; at 4bpp the even pixel in the low nibble and the
odd one in the high nibble; each index masked. That MAX_ELEMS, however small, bounds no ROW is the model's choice
(log 26). -/
def Obligations.RowencPacksGbaRows : Prop :=
  ∀ (p0 p1 p2 p3 p4 p5 p6 p7 : Nat) (s : State), Ready s → s.port.ops = .row [p0, p1, p2, p3, p4, p5, p6, p7] →
    exec (.rowenc .gba 8) s = .next (startedWith
      [.bytes ([p0, p1, p2, p3, p4, p5, p6, p7].map fun p => BitVec.ofNat 8 (p % 256))] s) ∧
    exec (.rowenc .gba 4) s = .next (startedWith
      [.bytes ([(p0, p1), (p2, p3), (p4, p5), (p6, p7)].map fun p => BitVec.ofNat 8 (p.1 % 16 + 16 * (p.2 % 16)))] s)

/-- R134, R52, R129: TILEDEC of any bytes of the right length emits the 64 indices of the tile in row-major order, as one
element; no byte pattern is illegal, and every index is below 2^bpp. -/
def Obligations.TiledecEmitsRowMajorIndices : Prop :=
  ∀ (f : Format) (bpp : Nat) (tile : List Byte) (s : State), Ready s → s.port.ops = .tile tile →
    legalPair f bpp = true → tile.length = bpp * 8 →
    ∃ px : List Nat, exec (.tiledec (formatCode f) bpp) s = .next (startedWith [.indices px] s) ∧ px.length = 64 ∧
      (∀ p ∈ px, p < 2 ^ bpp) ∧ ∀ y x, y < 8 → x < 8 → px.getD (8 * y + x) 0 = decPix f bpp tile y x

/-- R135, R120, R136: TILEENC emits bpp × 8 bytes in every format; byte ROWOFF(y, j) is byte j of the encoded row y, and so
pixel (y, x) of the tile decodes to the low bpp bits of its index. That MAX_ELEMS, however small, bounds no TPIX is the
model's choice (log 26). -/
def Obligations.TileencPlacesEveryRow : Prop :=
  ∀ (f : Format) (bpp : Nat) (tpix : List Nat) (s : State), Ready s → s.port.ops = .tpix tpix →
    legalPair f bpp = true → tpix.length = 64 →
    ∃ t : List Byte, exec (.tileenc (formatCode f) bpp) s = .next (startedWith [.bytes t] s) ∧ t.length = bpp * 8 ∧
      (∀ y j, y < 8 → j < bpp →
        t.getD (rowOff f bpp y j) 0 = (encRow f bpp ((tpix.drop (8 * y)).take 8)).getD j 0) ∧
      ∀ y x, y < 8 → x < 8 → decPix f bpp t y x = tpix.getD (8 * y + x) 0 % 2 ^ bpp

/-- R137 (a), (b): encoding a decoded tile gives the tile back, and decoding an encoded tile gives each index's low bpp
bits. -/
def Obligations.TileCodecRoundTrips : Prop :=
  ∀ (f : Format) (bpp : Nat), legalPair f bpp = true →
    (∀ tile : List Byte, tile.length = bpp * 8 → encTile f bpp (decTile f bpp tile) = tile) ∧
    (∀ tpix : List Nat, tpix.length = 64 → decTile f bpp (encTile f bpp tpix) = tpix.map (· % 2 ^ bpp))

/-- R137 (c), (d), (e): a tile whose row y holds an encoded row decodes to its masked indices; putting a pixel's own value
back gives the tile back; Interwined and Planar are one layout at 1bpp. -/
def Obligations.RowAndPixelLaws : Prop :=
  ∀ (f : Format) (bpp : Nat) (tile : List Byte) (y : Nat), legalPair f bpp = true → tile.length = bpp * 8 → y < 8 →
    (∀ row : List Nat, row.length = 8 →
      (∀ j, j < bpp → tile.getD (rowOff f bpp y j) 0 = (encRow f bpp row).getD j 0) →
      decRow f bpp tile y = row.map (· % 2 ^ bpp)) ∧
    (∀ x v, x < 8 → decPix f bpp (putPix f bpp tile y x v) y x = v % 2 ^ bpp ∧
      putPix f bpp tile y x (decPix f bpp tile y x) = tile) ∧
    rowOff .interwined 1 y 0 = y ∧ rowOff .planar 1 y 0 = y

/-- R90 (I4, I5): with a legal configuration a TILE that does not hold bpp × 8 bytes, a coordinate outside 0..7, a ROW of
other than 8 and a TPIX of other than 64 indices are refused. -/
def Obligations.TileShapesAreRefused : Prop :=
  ∀ (f : Format) (bpp y x v : Nat) (tile : List Byte) (l : List Nat) (s : State), Ready s → legalPair f bpp = true →
    (s.port.ops = .tileYX tile y x → tile.length ≠ bpp * 8 ∨ 8 ≤ y ∨ 8 ≤ x →
      exec (.pixdec (formatCode f) bpp) s = .next { s with refused := true }) ∧
    (s.port.ops = .tileYXV tile y x v → tile.length ≠ bpp * 8 ∨ 8 ≤ y ∨ 8 ≤ x →
      exec (.pixenc (formatCode f) bpp) s = .next { s with refused := true }) ∧
    (s.port.ops = .tileY tile y → tile.length ≠ bpp * 8 ∨ 8 ≤ y →
      exec (.rowdec (formatCode f) bpp) s = .next { s with refused := true }) ∧
    (s.port.ops = .row l → l.length ≠ 8 → exec (.rowenc (formatCode f) bpp) s = .next { s with refused := true }) ∧
    (s.port.ops = .tile tile → tile.length ≠ bpp * 8 →
      exec (.tiledec (formatCode f) bpp) s = .next { s with refused := true }) ∧
    (s.port.ops = .tpix l → l.length ≠ 64 → exec (.tileenc (formatCode f) bpp) s = .next { s with refused := true })

/-! ### Tile grid -/

/-- R161, R162, R163, R53: SHEETDEC emits 8 × ceildiv(N, bpp × 128) rows of 128 indices; pixel (y, c) of tile row r is
decoded from tile 16r + c div 8 of the stream where the stream holds all of that tile, and is 0 where it does not. -/
def Obligations.SheetdecEmitsPaddedRows : Prop :=
  ∀ (f : Format) (bpp : Nat) (bytes : List Byte) (s : State), Ready s → s.port.ops = .bytesIn bytes →
    legalPair f bpp = true → withinCap s.params.maxBytes bytes.length = true → bytes ≠ [] →
    ∃ rows : List (List Nat), exec (.sheetdec (formatCode f) bpp) s = .next (startedWith (rows.map .indices) s) ∧
      rows.length = 8 * ((bytes.length + bpp * 128 - 1) / (bpp * 128)) ∧
      ∀ r y, 8 * r + y < rows.length → y < 8 →
        (rows.getD (8 * r + y) []).length = 128 ∧
        ∀ c, c < 128 → (rows.getD (8 * r + y) []).getD c 0 =
          if (16 * r + c / 8 + 1) * (bpp * 8) ≤ bytes.length then
            decPix f bpp ((bytes.drop ((16 * r + c / 8) * (bpp * 8))).take (bpp * 8)) y (c % 8)
          else 0

/-- R165, R166, R167: SHEETENC of a grid with positive dimensions emits (width div 8) × (height div 8) tiles of bpp × 8
bytes, left to right, top to bottom; pixel (y, x) of tile k decodes to the low bpp bits of its grid index. -/
def Obligations.SheetencEmitsTilesInOrder : Prop :=
  ∀ (f : Format) (bpp width height : Nat) (grid : List Nat) (s : State), Ready s →
    s.port.ops = .grid grid width height → legalPair f bpp = true →
    withinCap s.params.maxElems grid.length = true →
    width % 8 = 0 → height % 8 = 0 → grid.length = width * height → 0 < width → 0 < height →
    ∃ tiles : List (List Byte), exec (.sheetenc (formatCode f) bpp) s = .next (startedWith (tiles.map .bytes) s) ∧
      tiles.length = (width / 8) * (height / 8) ∧
      ∀ k, k < tiles.length → (tiles.getD k []).length = bpp * 8 ∧
        ∀ y x, y < 8 → x < 8 → decPix f bpp (tiles.getD k []) y x =
          grid.getD ((8 * (k / (width / 8)) + y) * width + 8 * (k % (width / 8)) + x) 0 % 2 ^ bpp

/-- R223, R227: with a legal configuration and a grid within capacity, SHEETENC reports a width that is no multiple of 8,
then such a height, then a length that is not width × height. -/
def Obligations.SheetencReportsDimensions : Prop :=
  ∀ (f : Format) (bpp width height : Nat) (grid : List Nat) (s : State), Ready s →
    s.port.ops = .grid grid width height → legalPair f bpp = true →
    withinCap s.params.maxElems grid.length = true →
    (width % 8 ≠ 0 → exec (.sheetenc (formatCode f) bpp) s = .next (failedWith 2 0 0 0 s)) ∧
    (width % 8 = 0 → height % 8 ≠ 0 → exec (.sheetenc (formatCode f) bpp) s = .next (failedWith 2 1 0 0 s)) ∧
    (width % 8 = 0 → height % 8 = 0 → grid.length ≠ width * height →
      exec (.sheetenc (formatCode f) bpp) s = .next (failedWith 2 2 0 0 s))

/-- R234, D38: empty inputs complete OK with no output: SHEETDEC of no bytes, SHEETENC of width or height 0, MATCH of no
pixels against a palette of their channel count, APPLY of no indices; and CFGCHECK of a legal pair (R213). -/
def Obligations.EmptyInputsCompleteAtOnce : Prop :=
  ∀ (f : Format) (bpp : Nat) (s : State), Ready s → legalPair f bpp = true →
    (s.port.ops = .bytesIn [] → exec (.sheetdec (formatCode f) bpp) s = .next (completedEmpty s)) ∧
    (∀ w h, s.port.ops = .grid [] w h → w % 8 = 0 → h % 8 = 0 → w = 0 ∨ h = 0 →
      exec (.sheetenc (formatCode f) bpp) s = .next (completedEmpty s)) ∧
    (∀ pal, s.port.ops = .pixPal [] pal.channels pal → paletteShape s.params pal = true →
      exec .matchPix s = .next (completedEmpty s)) ∧
    (∀ pal, s.port.ops = .idxPal [] pal → paletteShape s.params pal = true →
      exec .applyPal s = .next (completedEmpty s)) ∧
    (s.port.ops = .empty → exec (.cfgcheck (formatCode f) bpp) s = .next (completedEmpty s))

/-- R168 (a), (d): encoding the decoded sheet of a stream gives the stream's whole tiles and then zero tiles up to a whole
number of tile rows; for a stream of whole tile rows it gives the stream back. -/
def Obligations.SheetEncodeOfDecode : Prop :=
  ∀ (f : Format) (bpp : Nat) (bytes : List Byte), legalPair f bpp = true →
    (sheetTiles f bpp (sheetRows f bpp bytes).flatten 128 (imgHeight bytes.length bpp)).flatten =
        bytes.take (bytes.length / (bpp * 8) * (bpp * 8)) ++
          List.replicate (bpp * 128 * ceildiv bytes.length (bpp * 128) - bytes.length / (bpp * 8) * (bpp * 8)) 0#8 ∧
    (bytes.length % (bpp * 128) = 0 →
      (sheetTiles f bpp (sheetRows f bpp bytes).flatten 128 (imgHeight bytes.length bpp)).flatten = bytes)

/-- R168 (b): decoding the encoded sheet of a grid of width 128, height a multiple of 8 and indices below 2^bpp gives
the grid back. -/
def Obligations.SheetDecodeOfEncode : Prop :=
  ∀ (f : Format) (bpp height : Nat) (grid : List Nat), legalPair f bpp = true → height % 8 = 0 →
    grid.length = 128 * height → (∀ p ∈ grid, p < 2 ^ bpp) →
    (sheetRows f bpp (sheetTiles f bpp grid 128 height).flatten).flatten = grid

/-! ### Palette engine -/

/-- R182, R183, R187: with matching channel counts and every colour in the palette, MATCH emits for each pixel, in order,
the least index whose entry is its colour. -/
def Obligations.MatchEmitsLeastIndices : Prop :=
  ∀ (pix : List Colour) (pal : Palette) (s : State), Ready s → s.port.ops = .pixPal pix pal.channels pal →
    matchShape s.params pix pal.channels pal = true → pix ≠ [] → (∀ c ∈ pix, c ∈ pal.entries) →
    ∃ idx : List Nat, exec .matchPix s = .next (startedWith (idx.map .index) s) ∧ idx.length = pix.length ∧
      ∀ p, p < pix.length → idx.getD p 0 < pal.entries.length ∧
        pal.entries[idx.getD p 0]? = pix[p]? ∧ ∀ t, t < idx.getD p 0 → pal.entries[t]? ≠ pix[p]?

/-- R182, R185, R224, R227: MATCH reports a channel-count mismatch before it looks at a pixel, and else the position of
the first colour with no exact match. Nothing is emitted. -/
def Obligations.MatchReportsTheFirstMismatch : Prop :=
  ∀ (pix : List Colour) (pixch : Nat) (pal : Palette) (s : State), Ready s → s.port.ops = .pixPal pix pixch pal →
    matchShape s.params pix pixch pal = true →
    (pixch ≠ pal.channels → exec .matchPix s = .next (failedWith 3 1 0 0 s)) ∧
    (pixch = pal.channels → ∀ p c, pix[p]? = some c → c ∉ pal.entries → (∀ c' ∈ pix.take p, c' ∈ pal.entries) →
      exec .matchPix s = .next (failedWith 3 0 p 0 s))

/-- R186, R187, R54: with every index below the palette size, APPLY emits the entry of each index, in order. -/
def Obligations.ApplyLooksUpEveryIndex : Prop :=
  ∀ (idx : List Nat) (pal : Palette) (s : State), Ready s → s.port.ops = .idxPal idx pal →
    applyShape s.params idx pal = true → idx ≠ [] → (∀ i ∈ idx, i < pal.entries.length) →
    exec .applyPal s = .next (startedWith (idx.map fun i => .colour (pal.entries.getD i [])) s)

/-- R186, R185, R225: APPLY reports the position and the value of the first index at or above the palette size. Nothing
is emitted. -/
def Obligations.ApplyReportsTheFirstIndexOutOfRange : Prop :=
  ∀ (idx : List Nat) (pal : Palette) (p v : Nat) (s : State), Ready s → s.port.ops = .idxPal idx pal →
    applyShape s.params idx pal = true → idx[p]? = some v → pal.entries.length ≤ v →
    (∀ i ∈ idx.take p, i < pal.entries.length) →
    exec .applyPal s = .next (failedWith 4 0 p v s)

/-- R90, R180 (I6): a palette whose channel count is not 1, 3 or 4, or with an entry of another length, or longer than
PAL_CAP, is refused by MATCH and APPLY; so is a pixel whose length is not pixch. -/
def Obligations.PaletteShapesAreRefused : Prop :=
  ∀ (pix : List Colour) (idx : List Nat) (pixch : Nat) (pal : Palette) (s : State), Ready s →
    let bad := (pal.channels ≠ 1 ∧ pal.channels ≠ 3 ∧ pal.channels ≠ 4) ∨
      (∃ c ∈ pal.entries, c.length ≠ pal.channels) ∨ (∃ cap, s.params.palCap = some cap ∧ cap < pal.entries.length)
    (s.port.ops = .pixPal pix pixch pal → bad ∨ pixch = 0 ∨ (∃ c ∈ pix, c.length ≠ pixch) →
      exec .matchPix s = .next { s with refused := true }) ∧
    (s.port.ops = .idxPal idx pal → bad → exec .applyPal s = .next { s with refused := true })

/-- R188, R189, R190: GRAYPAL emits 2^bpp colours; entry t has the gray level nearest to 255 t / (2^bpp - 1), with no
tie, on each colour channel, and alpha 255 as fourth channel. -/
def Obligations.GraypalEmitsNearestGrays : Prop :=
  ∀ (bpp : Nat) (ch : ChCode) (s : State), Ready s → s.port.ops = .empty → 1 ≤ bpp → bpp ≤ 8 → ch ≠ .reserved →
    ∃ levels : List Nat, levels.length = 2 ^ bpp ∧
      (∀ t, t < 2 ^ bpp → levels.getD t 0 ≤ 255 ∧
        2 * (2 ^ bpp - 1) * levels.getD t 0 < 510 * t + (2 ^ bpp - 1) ∧
        510 * t < 2 * (2 ^ bpp - 1) * levels.getD t 0 + (2 ^ bpp - 1)) ∧
      exec (.graypal bpp ch) s = .next (startedWith (levels.map fun g =>
        .colour (match ch with
          | .one => [BitVec.ofNat 8 g]
          | .three => [BitVec.ofNat 8 g, BitVec.ofNat 8 g, BitVec.ofNat 8 g]
          | .four => [BitVec.ofNat 8 g, BitVec.ofNat 8 g, BitVec.ofNat 8 g, 255#8]
          | .reserved => [])) s)

/-- R188, R227: GRAYPAL reports a BPP outside 1..8 before CH = 3, whatever the record. -/
def Obligations.GraypalReportsConfiguration : Prop :=
  ∀ (bpp : Nat) (ch : ChCode) (s : State), Ready s →
    (bpp < 1 ∨ 8 < bpp → exec (.graypal bpp ch) s = .next (failedWith 1 0 0 0 s)) ∧
    (1 ≤ bpp → bpp ≤ 8 → ch = .reserved → exec (.graypal bpp ch) s = .next (failedWith 1 3 0 0 s))

/-- R189, R192: for every bpp in 1..8 the gray levels are strictly ascending, from 0 to 255. -/
def Obligations.GrayLevelsAscendFromBlackToWhite : Prop :=
  ∀ bpp, 1 ≤ bpp → bpp ≤ 8 →
    grayLevel bpp 0 = 0 ∧ grayLevel bpp (2 ^ bpp - 1) = 255 ∧
    ∀ t u, t < u → u < 2 ^ bpp → grayLevel bpp t < grayLevel bpp u

/-! ### Geometry and registry -/

/-- R200, R201: IMGHEIGHT emits 8 × ceildiv(n, bpp × 128); a BPP outside 1..8 is a ConfigurationError, whatever the
record. -/
def Obligations.ImgheightEmitsTheSheetHeight : Prop :=
  ∀ (bpp n : Nat) (s : State), Ready s →
    (1 ≤ bpp → bpp ≤ 8 → s.port.ops = .numBytes n → withinCap s.params.maxBytes n = true →
      exec (.imgheight bpp) s = .next (startedWith [.nat (8 * ((n + bpp * 128 - 1) / (bpp * 128)))] s)) ∧
    (bpp < 1 ∨ 8 < bpp → exec (.imgheight bpp) s = .next (failedWith 1 0 0 0 s))

/-- R202: the laws of IMGHEIGHT: a multiple of 8 and monotone; idempotent under re-rounding with 16 bytes per row and
bit of depth; not so with 128, which gives 8 times the height; 8k for k full tile rows. -/
def Obligations.ImgheightLaws : Prop :=
  ∀ bpp, 1 ≤ bpp → bpp ≤ 8 →
    (∀ n, imgHeight n bpp % 8 = 0) ∧
    (∀ n m, n ≤ m → imgHeight n bpp ≤ imgHeight m bpp) ∧
    (∀ n, imgHeight (imgHeight n bpp * bpp * 16) bpp = imgHeight n bpp) ∧
    (∀ n, 0 < n → imgHeight (imgHeight n bpp * bpp * 8 * 16) bpp = 8 * imgHeight n bpp ∧
      imgHeight (imgHeight n bpp * bpp * 8 * 16) bpp ≠ imgHeight n bpp) ∧
    (∀ k, imgHeight (k * bpp * 128) bpp = 8 * k)

/-- R210, R214, R227: FMTLOOKUP emits the code of the format a name names, and reports an unknown name. It looks at the
name before the shape: an unknown name is reported beside a surplus field too, and with a known name the surplus field
has the record refused (log 22). For three distinct names the codes are those of R210. For a name that FORMAT_NAMES
holds twice the first two clauses say more: the least code is emitted (0 for Planar's name whatever the others are, 1 for
Interwined's also where GBA has the same name). R210 does not settle that case, and the least code is the model's choice
(log 11). -/
def Obligations.FmtlookupFindsTheCode : Prop :=
  ∀ (name : String) (s : State), Ready s →
    (s.port.ops = .name name →
      (name = s.params.namePlanar → exec .fmtlookup s = .next (startedWith [.format 0] s)) ∧
      (name = s.params.nameInterwined → s.params.nameInterwined ≠ s.params.namePlanar →
        exec .fmtlookup s = .next (startedWith [.format 1] s)) ∧
      (name = s.params.nameGba → s.params.nameGba ≠ s.params.namePlanar → s.params.nameGba ≠ s.params.nameInterwined →
        exec .fmtlookup s = .next (startedWith [.format 2] s))) ∧
    (s.port.ops = .name name ∨ s.port.ops = .nameSurplus name →
      name ≠ s.params.namePlanar → name ≠ s.params.nameInterwined → name ≠ s.params.nameGba →
      exec .fmtlookup s = .next (failedWith 1 4 0 0 s)) ∧
    (s.port.ops = .nameSurplus name →
      name = s.params.namePlanar ∨ name = s.params.nameInterwined ∨ name = s.params.nameGba →
      exec .fmtlookup s = .next { s with refused := true })

/-- R211, R212: FMTNAME emits the format's name and BPPLIST its bit depths, ascending; both report FMT = 3, whatever the
record. -/
def Obligations.FmtnameAndBpplistDescribeTheFormat : Prop :=
  ∀ s : State, Ready s →
    (s.port.ops = .empty →
      exec (.fmtname .planar) s = .next (startedWith [.name s.params.namePlanar] s) ∧
      exec (.fmtname .interwined) s = .next (startedWith [.name s.params.nameInterwined] s) ∧
      exec (.fmtname .gba) s = .next (startedWith [.name s.params.nameGba] s) ∧
      exec (.bpplist .planar) s = .next (startedWith [.nat 1, .nat 2, .nat 3, .nat 4, .nat 5, .nat 6, .nat 7, .nat 8] s) ∧
      exec (.bpplist .interwined) s =
        .next (startedWith [.nat 1, .nat 2, .nat 3, .nat 4, .nat 5, .nat 6, .nat 7, .nat 8] s) ∧
      exec (.bpplist .gba) s = .next (startedWith [.nat 4, .nat 8] s)) ∧
    exec (.fmtname .reserved) s = .next (failedWith 1 2 0 0 s) ∧
    exec (.bpplist .reserved) s = .next (failedWith 1 2 0 0 s)

/-- R92, R187, R192, R163: the default-palette decode path: with a legal configuration, a channel count and no bound on
capacity, DECODE_PATH of any stream ends with 128 × IMGHEIGHT(N, bpp) colours and no error. The block does not sequence
R92's path and no step of the machine runs here: that DECODE_PATH is `decodePath`, the composition of the commands' pure
results, is the model's choice (log 25). -/
def Obligations.DefaultDecodePathAlwaysSucceeds : Prop :=
  ∀ (params : Params) (f : Format) (bpp : Nat) (ch : ChCode) (bytes : List Byte), legalPair f bpp = true →
    ch ≠ .reserved → params.maxBytes = none → params.maxElems = none → params.palCap = none →
    ∃ cs : List Element, decodePath params (formatCode f) bpp ch none bytes = .ok cs ∧
      cs.length = 128 * imgHeight bytes.length bpp
end

