-- ==== Sys2Proof/Laws/State.lean ====
section
/-! SUPPORT. What each named update of the state does to each field: one lemma per field per update, true by rfl, so that no
proof unfolds a record update. -/

namespace Sys2Proof.Machine

section completeCommand

variable (code sub : BitVec 4) (pos val : Nat) (s : State)

@[simp] theorem completeCommand_phase : (completeCommand code sub pos val s).phase = .done := rfl
@[simp] theorem completeCommand_cmd : (completeCommand code sub pos val s).cmd = s.cmd := rfl
@[simp] theorem completeCommand_ops : (completeCommand code sub pos val s).ops = s.ops := rfl
@[simp] theorem completeCommand_result : (completeCommand code sub pos val s).result = packResult code sub := rfl
@[simp] theorem completeCommand_resultPos : (completeCommand code sub pos val s).resultPos = pos := rfl
@[simp] theorem completeCommand_resultVal : (completeCommand code sub pos val s).resultVal = val := rfl
@[simp] theorem completeCommand_out : (completeCommand code sub pos val s).out = s.out := rfl
@[simp] theorem completeCommand_pending : (completeCommand code sub pos val s).pending = [] := rfl
@[simp] theorem completeCommand_cur : (completeCommand code sub pos val s).cur = s.cur := rfl
@[simp] theorem completeCommand_total : (completeCommand code sub pos val s).total = s.total := rfl
@[simp] theorem completeCommand_refused : (completeCommand code sub pos val s).refused = s.refused := rfl
@[simp] theorem completeCommand_params : (completeCommand code sub pos val s).params = s.params := rfl
@[simp] theorem completeCommand_port : (completeCommand code sub pos val s).port = s.port := rfl
@[simp] theorem completeCommand_script : (completeCommand code sub pos val s).script = s.script := rfl
@[simp] theorem completeCommand_taken : (completeCommand code sub pos val s).taken = s.taken := rfl
@[simp] theorem completeCommand_seen : (completeCommand code sub pos val s).seen = s.seen := rfl

end completeCommand

section latchCommand

variable (s : State)

@[simp] theorem latchCommand_phase : (latchCommand s).phase = s.phase := rfl
@[simp] theorem latchCommand_cmd : (latchCommand s).cmd = s.port.word := rfl
@[simp] theorem latchCommand_ops : (latchCommand s).ops = some s.port.ops := rfl
@[simp] theorem latchCommand_result : (latchCommand s).result = packResult codeNone 0#4 := rfl
@[simp] theorem latchCommand_resultPos : (latchCommand s).resultPos = 0 := rfl
@[simp] theorem latchCommand_resultVal : (latchCommand s).resultVal = 0 := rfl
@[simp] theorem latchCommand_out : (latchCommand s).out = [] := rfl
@[simp] theorem latchCommand_pending : (latchCommand s).pending = s.pending := rfl
@[simp] theorem latchCommand_cur : (latchCommand s).cur = 0 := rfl
@[simp] theorem latchCommand_total : (latchCommand s).total = s.total := rfl
@[simp] theorem latchCommand_refused : (latchCommand s).refused = s.refused := rfl
@[simp] theorem latchCommand_params : (latchCommand s).params = s.params := rfl
@[simp] theorem latchCommand_port : (latchCommand s).port = s.port := rfl
@[simp] theorem latchCommand_script : (latchCommand s).script = s.script := rfl
@[simp] theorem latchCommand_taken : (latchCommand s).taken = 0 := rfl
@[simp] theorem latchCommand_seen : (latchCommand s).seen = s.seen := rfl

end latchCommand

section launchCommand

variable (es : List Element) (s : State)

@[simp] theorem launchCommand_phase : (launchCommand es s).phase = .running := rfl
@[simp] theorem launchCommand_cmd : (launchCommand es s).cmd = s.cmd := rfl
@[simp] theorem launchCommand_ops : (launchCommand es s).ops = s.ops := rfl
@[simp] theorem launchCommand_result : (launchCommand es s).result = s.result := rfl
@[simp] theorem launchCommand_resultPos : (launchCommand es s).resultPos = s.resultPos := rfl
@[simp] theorem launchCommand_resultVal : (launchCommand es s).resultVal = s.resultVal := rfl
@[simp] theorem launchCommand_out : (launchCommand es s).out = s.out := rfl
@[simp] theorem launchCommand_pending : (launchCommand es s).pending = es := rfl
@[simp] theorem launchCommand_cur : (launchCommand es s).cur = s.cur := rfl
@[simp] theorem launchCommand_total : (launchCommand es s).total = es.length := rfl
@[simp] theorem launchCommand_refused : (launchCommand es s).refused = s.refused := rfl
@[simp] theorem launchCommand_params : (launchCommand es s).params = s.params := rfl
@[simp] theorem launchCommand_port : (launchCommand es s).port = s.port := rfl
@[simp] theorem launchCommand_script : (launchCommand es s).script = s.script := rfl
@[simp] theorem launchCommand_taken : (launchCommand es s).taken = s.taken := rfl
@[simp] theorem launchCommand_seen : (launchCommand es s).seen = s.seen := rfl

end launchCommand

section markRefused

variable (s : State)

@[simp] theorem markRefused_phase : (markRefused s).phase = s.phase := rfl
@[simp] theorem markRefused_cmd : (markRefused s).cmd = s.cmd := rfl
@[simp] theorem markRefused_ops : (markRefused s).ops = s.ops := rfl
@[simp] theorem markRefused_result : (markRefused s).result = s.result := rfl
@[simp] theorem markRefused_resultPos : (markRefused s).resultPos = s.resultPos := rfl
@[simp] theorem markRefused_resultVal : (markRefused s).resultVal = s.resultVal := rfl
@[simp] theorem markRefused_out : (markRefused s).out = s.out := rfl
@[simp] theorem markRefused_pending : (markRefused s).pending = s.pending := rfl
@[simp] theorem markRefused_cur : (markRefused s).cur = s.cur := rfl
@[simp] theorem markRefused_total : (markRefused s).total = s.total := rfl
@[simp] theorem markRefused_refused : (markRefused s).refused = true := rfl
@[simp] theorem markRefused_params : (markRefused s).params = s.params := rfl
@[simp] theorem markRefused_port : (markRefused s).port = s.port := rfl
@[simp] theorem markRefused_script : (markRefused s).script = s.script := rfl
@[simp] theorem markRefused_taken : (markRefused s).taken = s.taken := rfl
@[simp] theorem markRefused_seen : (markRefused s).seen = s.seen := rfl

end markRefused

section emitElement

variable (e : Element) (rest : List Element) (s : State)

@[simp] theorem emitElement_phase : (emitElement e rest s).phase = s.phase := rfl
@[simp] theorem emitElement_cmd : (emitElement e rest s).cmd = s.cmd := rfl
@[simp] theorem emitElement_ops : (emitElement e rest s).ops = s.ops := rfl
@[simp] theorem emitElement_result : (emitElement e rest s).result = s.result := rfl
@[simp] theorem emitElement_resultPos : (emitElement e rest s).resultPos = s.resultPos := rfl
@[simp] theorem emitElement_resultVal : (emitElement e rest s).resultVal = s.resultVal := rfl
@[simp] theorem emitElement_out : (emitElement e rest s).out = s.out ++ [e] := rfl
@[simp] theorem emitElement_pending : (emitElement e rest s).pending = rest := rfl
@[simp] theorem emitElement_cur : (emitElement e rest s).cur = s.cur + 1 := rfl
@[simp] theorem emitElement_total : (emitElement e rest s).total = s.total := rfl
@[simp] theorem emitElement_refused : (emitElement e rest s).refused = s.refused := rfl
@[simp] theorem emitElement_params : (emitElement e rest s).params = s.params := rfl
@[simp] theorem emitElement_port : (emitElement e rest s).port = s.port := rfl
@[simp] theorem emitElement_script : (emitElement e rest s).script = s.script := rfl
@[simp] theorem emitElement_taken : (emitElement e rest s).taken = s.taken := rfl
@[simp] theorem emitElement_seen : (emitElement e rest s).seen = s.seen := rfl

end emitElement

section resetBlock

variable (s : State)

@[simp] theorem resetBlock_phase : (resetBlock s).phase = .idle := rfl
@[simp] theorem resetBlock_cmd : (resetBlock s).cmd = State.reset.cmd := rfl
@[simp] theorem resetBlock_ops : (resetBlock s).ops = none := rfl
@[simp] theorem resetBlock_result : (resetBlock s).result = State.reset.result := rfl
@[simp] theorem resetBlock_resultPos : (resetBlock s).resultPos = 0 := rfl
@[simp] theorem resetBlock_resultVal : (resetBlock s).resultVal = 0 := rfl
@[simp] theorem resetBlock_out : (resetBlock s).out = [] := rfl
@[simp] theorem resetBlock_pending : (resetBlock s).pending = [] := rfl
@[simp] theorem resetBlock_cur : (resetBlock s).cur = 0 := rfl
@[simp] theorem resetBlock_total : (resetBlock s).total = 0 := rfl
@[simp] theorem resetBlock_refused : (resetBlock s).refused = s.refused := rfl
@[simp] theorem resetBlock_params : (resetBlock s).params = s.params := rfl
@[simp] theorem resetBlock_port : (resetBlock s).port = s.port := rfl
@[simp] theorem resetBlock_script : (resetBlock s).script = s.script := rfl
@[simp] theorem resetBlock_taken : (resetBlock s).taken = 0 := rfl
@[simp] theorem resetBlock_seen : (resetBlock s).seen = s.seen := rfl

end resetBlock

section readStatus

variable (s : State)

@[simp] theorem readStatus_phase : (readStatus s).phase = s.phase := rfl
@[simp] theorem readStatus_cmd : (readStatus s).cmd = s.cmd := rfl
@[simp] theorem readStatus_ops : (readStatus s).ops = s.ops := rfl
@[simp] theorem readStatus_result : (readStatus s).result = s.result := rfl
@[simp] theorem readStatus_resultPos : (readStatus s).resultPos = s.resultPos := rfl
@[simp] theorem readStatus_resultVal : (readStatus s).resultVal = s.resultVal := rfl
@[simp] theorem readStatus_out : (readStatus s).out = s.out := rfl
@[simp] theorem readStatus_pending : (readStatus s).pending = s.pending := rfl
@[simp] theorem readStatus_cur : (readStatus s).cur = s.cur := rfl
@[simp] theorem readStatus_total : (readStatus s).total = s.total := rfl
@[simp] theorem readStatus_refused : (readStatus s).refused = s.refused := rfl
@[simp] theorem readStatus_params : (readStatus s).params = s.params := rfl
@[simp] theorem readStatus_port : (readStatus s).port = s.port := rfl
@[simp] theorem readStatus_script : (readStatus s).script = s.script := rfl
@[simp] theorem readStatus_taken : (readStatus s).taken = s.taken := rfl
@[simp] theorem readStatus_seen : (readStatus s).seen = s.seen ++ [.status s.phase.code s.result s.resultPos s.resultVal] := rfl

end readStatus

section presentRequest

variable (r : Request) (s : State)

@[simp] theorem presentRequest_phase : (presentRequest r s).phase = s.phase := rfl
@[simp] theorem presentRequest_cmd : (presentRequest r s).cmd = s.cmd := rfl
@[simp] theorem presentRequest_ops : (presentRequest r s).ops = s.ops := rfl
@[simp] theorem presentRequest_result : (presentRequest r s).result = s.result := rfl
@[simp] theorem presentRequest_resultPos : (presentRequest r s).resultPos = s.resultPos := rfl
@[simp] theorem presentRequest_resultVal : (presentRequest r s).resultVal = s.resultVal := rfl
@[simp] theorem presentRequest_out : (presentRequest r s).out = s.out := rfl
@[simp] theorem presentRequest_pending : (presentRequest r s).pending = s.pending := rfl
@[simp] theorem presentRequest_cur : (presentRequest r s).cur = s.cur := rfl
@[simp] theorem presentRequest_total : (presentRequest r s).total = s.total := rfl
@[simp] theorem presentRequest_refused : (presentRequest r s).refused = s.refused := rfl
@[simp] theorem presentRequest_params : (presentRequest r s).params = s.params := rfl
@[simp] theorem presentRequest_port : (presentRequest r s).port = r := rfl
@[simp] theorem presentRequest_script : (presentRequest r s).script = s.script := rfl
@[simp] theorem presentRequest_taken : (presentRequest r s).taken = s.taken := rfl
@[simp] theorem presentRequest_seen : (presentRequest r s).seen = s.seen := rfl

end presentRequest

section dropMove

variable (rest : List HostMove) (s : State)

@[simp] theorem dropMove_phase : (dropMove rest s).phase = s.phase := rfl
@[simp] theorem dropMove_cmd : (dropMove rest s).cmd = s.cmd := rfl
@[simp] theorem dropMove_ops : (dropMove rest s).ops = s.ops := rfl
@[simp] theorem dropMove_result : (dropMove rest s).result = s.result := rfl
@[simp] theorem dropMove_resultPos : (dropMove rest s).resultPos = s.resultPos := rfl
@[simp] theorem dropMove_resultVal : (dropMove rest s).resultVal = s.resultVal := rfl
@[simp] theorem dropMove_out : (dropMove rest s).out = s.out := rfl
@[simp] theorem dropMove_pending : (dropMove rest s).pending = s.pending := rfl
@[simp] theorem dropMove_cur : (dropMove rest s).cur = s.cur := rfl
@[simp] theorem dropMove_total : (dropMove rest s).total = s.total := rfl
@[simp] theorem dropMove_refused : (dropMove rest s).refused = s.refused := rfl
@[simp] theorem dropMove_params : (dropMove rest s).params = s.params := rfl
@[simp] theorem dropMove_port : (dropMove rest s).port = s.port := rfl
@[simp] theorem dropMove_script : (dropMove rest s).script = rest := rfl
@[simp] theorem dropMove_taken : (dropMove rest s).taken = s.taken := rfl
@[simp] theorem dropMove_seen : (dropMove rest s).seen = s.seen := rfl

end dropMove

section startedWith

variable (es : List Element) (s : State)

@[simp] theorem startedWith_phase : (startedWith es s).phase = .running := rfl
@[simp] theorem startedWith_cmd : (startedWith es s).cmd = s.port.word := rfl
@[simp] theorem startedWith_ops : (startedWith es s).ops = some s.port.ops := rfl
@[simp] theorem startedWith_result : (startedWith es s).result = 0x0000000F#32 := rfl
@[simp] theorem startedWith_resultPos : (startedWith es s).resultPos = 0 := rfl
@[simp] theorem startedWith_resultVal : (startedWith es s).resultVal = 0 := rfl
@[simp] theorem startedWith_out : (startedWith es s).out = [] := rfl
@[simp] theorem startedWith_pending : (startedWith es s).pending = es := rfl
@[simp] theorem startedWith_cur : (startedWith es s).cur = 0 := rfl
@[simp] theorem startedWith_total : (startedWith es s).total = es.length := rfl
@[simp] theorem startedWith_refused : (startedWith es s).refused = s.refused := rfl
@[simp] theorem startedWith_params : (startedWith es s).params = s.params := rfl
@[simp] theorem startedWith_port : (startedWith es s).port = s.port := rfl
@[simp] theorem startedWith_script : (startedWith es s).script = s.script := rfl
@[simp] theorem startedWith_taken : (startedWith es s).taken = 0 := rfl
@[simp] theorem startedWith_seen : (startedWith es s).seen = s.seen := rfl

end startedWith

section completedEmpty

variable (s : State)

@[simp] theorem completedEmpty_phase : (completedEmpty s).phase = .done := rfl
@[simp] theorem completedEmpty_cmd : (completedEmpty s).cmd = s.port.word := rfl
@[simp] theorem completedEmpty_ops : (completedEmpty s).ops = some s.port.ops := rfl
@[simp] theorem completedEmpty_result : (completedEmpty s).result = 0x00000000#32 := rfl
@[simp] theorem completedEmpty_resultPos : (completedEmpty s).resultPos = 0 := rfl
@[simp] theorem completedEmpty_resultVal : (completedEmpty s).resultVal = 0 := rfl
@[simp] theorem completedEmpty_out : (completedEmpty s).out = [] := rfl
@[simp] theorem completedEmpty_pending : (completedEmpty s).pending = [] := rfl
@[simp] theorem completedEmpty_cur : (completedEmpty s).cur = 0 := rfl
@[simp] theorem completedEmpty_total : (completedEmpty s).total = 0 := rfl
@[simp] theorem completedEmpty_refused : (completedEmpty s).refused = s.refused := rfl
@[simp] theorem completedEmpty_params : (completedEmpty s).params = s.params := rfl
@[simp] theorem completedEmpty_port : (completedEmpty s).port = s.port := rfl
@[simp] theorem completedEmpty_script : (completedEmpty s).script = s.script := rfl
@[simp] theorem completedEmpty_taken : (completedEmpty s).taken = 0 := rfl
@[simp] theorem completedEmpty_seen : (completedEmpty s).seen = s.seen := rfl

end completedEmpty

section failedWith

variable (code sub : BitVec 4) (pos val : Nat) (s : State)

@[simp] theorem failedWith_phase : (failedWith code sub pos val s).phase = .done := rfl
@[simp] theorem failedWith_cmd : (failedWith code sub pos val s).cmd = s.port.word := rfl
@[simp] theorem failedWith_ops : (failedWith code sub pos val s).ops = some s.port.ops := rfl
@[simp] theorem failedWith_result : (failedWith code sub pos val s).result = 0x000000#24 ++ sub ++ code := rfl
@[simp] theorem failedWith_resultPos : (failedWith code sub pos val s).resultPos = pos := rfl
@[simp] theorem failedWith_resultVal : (failedWith code sub pos val s).resultVal = val := rfl
@[simp] theorem failedWith_out : (failedWith code sub pos val s).out = [] := rfl
@[simp] theorem failedWith_pending : (failedWith code sub pos val s).pending = [] := rfl
@[simp] theorem failedWith_cur : (failedWith code sub pos val s).cur = 0 := rfl
@[simp] theorem failedWith_total : (failedWith code sub pos val s).total = s.total := rfl
@[simp] theorem failedWith_refused : (failedWith code sub pos val s).refused = s.refused := rfl
@[simp] theorem failedWith_params : (failedWith code sub pos val s).params = s.params := rfl
@[simp] theorem failedWith_port : (failedWith code sub pos val s).port = s.port := rfl
@[simp] theorem failedWith_script : (failedWith code sub pos val s).script = s.script := rfl
@[simp] theorem failedWith_taken : (failedWith code sub pos val s).taken = 0 := rfl
@[simp] theorem failedWith_seen : (failedWith code sub pos val s).seen = s.seen := rfl

end failedWith

section refusedState

variable (s : State)

@[simp] theorem refusedState_phase : (refusedState s).phase = s.phase := rfl
@[simp] theorem refusedState_cmd : (refusedState s).cmd = s.cmd := rfl
@[simp] theorem refusedState_ops : (refusedState s).ops = s.ops := rfl
@[simp] theorem refusedState_result : (refusedState s).result = s.result := rfl
@[simp] theorem refusedState_resultPos : (refusedState s).resultPos = s.resultPos := rfl
@[simp] theorem refusedState_resultVal : (refusedState s).resultVal = s.resultVal := rfl
@[simp] theorem refusedState_out : (refusedState s).out = s.out := rfl
@[simp] theorem refusedState_pending : (refusedState s).pending = s.pending := rfl
@[simp] theorem refusedState_cur : (refusedState s).cur = s.cur := rfl
@[simp] theorem refusedState_total : (refusedState s).total = s.total := rfl
@[simp] theorem refusedState_refused : (refusedState s).refused = true := rfl
@[simp] theorem refusedState_params : (refusedState s).params = s.params := rfl
@[simp] theorem refusedState_port : (refusedState s).port = s.port := rfl
@[simp] theorem refusedState_script : (refusedState s).script = s.script := rfl
@[simp] theorem refusedState_taken : (refusedState s).taken = s.taken := rfl
@[simp] theorem refusedState_seen : (refusedState s).seen = s.seen := rfl

end refusedState

end Sys2Proof.Machine
end

