-- ==== Sys2Proof/Laws/Ops.lean ====
section
/-! SUPPORT. What each shared operation can do, said once: acceptance, the checks of a command, the engine step, the moves of
the host, and the fields of a command word. -/

namespace Sys2Proof.Machine

/-- Exec of R29 for every command: the pure function of the parameters and the record that its meaning hands to `accept`. -/
def commandResult (i : Instr) (params : Params) (r : Record) : ExecResult :=
  match i with
  | .getbits ww => getbitsResult ww r
  | .setbits ww => setbitsResult ww r
  | .getbit ww => getbitResult ww r
  | .setbit ww => setbitResult ww r
  | .pixdec fmt bpp => pixdecResult fmt bpp r
  | .pixenc fmt bpp => pixencResult fmt bpp r
  | .rowdec fmt bpp => rowdecResult fmt bpp r
  | .rowenc fmt bpp => rowencResult fmt bpp r
  | .tiledec fmt bpp => tiledecResult fmt bpp r
  | .tileenc fmt bpp => tileencResult fmt bpp r
  | .sheetdec fmt bpp => sheetdecResult params fmt bpp r
  | .sheetenc fmt bpp => sheetencResult params fmt bpp r
  | .matchPix => matchResult params r
  | .applyPal => applyResult params r
  | .graypal bpp ch => graypalResult bpp ch r
  | .imgheight bpp => imgheightResult params bpp r
  | .cfgcheck fmt bpp => cfgcheckResult fmt bpp r
  | .fmtlookup => fmtlookupResult params r
  | .fmtname fmt => fmtnameResult params fmt r
  | .bpplist fmt => bpplistResult fmt r

/-- Every meaning is the acceptance of its pure result. -/
theorem exec_eq_accept (i : Instr) (s : State) :
    exec i s = accept (commandResult i s.params s.port.ops) s := by
  cases i <;> rfl

theorem accept_of_ready {s : State} (r : ExecResult) (h : Ready s) : accept r s = .next (acceptOutcome r s) := by
  unfold accept
  cases hp : s.phase <;> simp_all

theorem accept_of_running {s : State} (r : ExecResult) (h : s.phase = .running) :
    accept r s = .fault .issueWhileRunning := by
  simp [accept, h]

/-- All that acceptance can do. -/
theorem accept_cases (r : ExecResult) (s : State) :
    (s.phase = .running ∧ accept r s = .fault .issueWhileRunning) ∨
      (Ready s ∧ accept r s = .next (acceptOutcome r s)) := by
  by_cases h : s.phase = .running
  · exact .inl ⟨h, accept_of_running r h⟩
  · exact .inr ⟨h, accept_of_ready r h⟩

theorem accept_next_iff (r : ExecResult) (s t : State) :
    accept r s = .next t ↔ Ready s ∧ acceptOutcome r s = t := by
  rcases accept_cases r s with ⟨h, e⟩ | ⟨h, e⟩ <;> simp [e, h]

theorem acceptOutcome_refuse (s : State) : acceptOutcome .refuse s = refusedState s := rfl

theorem acceptOutcome_err (e : CmdError) (s : State) :
    acceptOutcome (.err e) s = failedWith e.code e.sub e.pos e.val s := rfl

theorem acceptOutcome_ok_nil (s : State) : acceptOutcome (.ok []) s = completedEmpty s := rfl

theorem acceptOutcome_ok {es : List Element} (h : es ≠ []) (s : State) :
    acceptOutcome (.ok es) s = startedWith es s := by
  cases es with
  | nil => exact absurd rfl h
  | cons e rest => rfl

/-- All that the outcome of acceptance can be, in the terms of Safety. -/
theorem acceptOutcome_cases (r : ExecResult) (s : State) :
    (r = .refuse ∧ acceptOutcome r s = refusedState s) ∨
      (∃ e, r = .err e ∧ acceptOutcome r s = failedWith e.code e.sub e.pos e.val s) ∨
      (r = .ok [] ∧ acceptOutcome r s = completedEmpty s) ∨
      (∃ es, es ≠ [] ∧ r = .ok es ∧ acceptOutcome r s = startedWith es s) := by
  match r with
  | .refuse => exact .inl ⟨rfl, rfl⟩
  | .err e => exact .inr (.inl ⟨e, rfl, rfl⟩)
  | .ok [] => exact .inr (.inr (.inl ⟨rfl, rfl⟩))
  | .ok (e :: es) => exact .inr (.inr (.inr ⟨e :: es, by simp, rfl, rfl⟩))

/-- The fields of RESULT are the fields packed (R25). -/
theorem resultCode_packResult (code sub : BitVec 4) : resultCode (packResult code sub) = code := by
  revert code sub
  decide

theorem resultSub_packResult (code sub : BitVec 4) : resultSub (packResult code sub) = sub := by
  revert code sub
  decide

/-- An error's code is one of 1 to 4 (R220). -/
theorem CmdError.code_mem (e : CmdError) : e.code ∈ [1#4, 2#4, 3#4, 4#4] := by
  cases e <;> simp [CmdError.code]

/-- CheckCfg answers the format exactly when FMT names it and BPP is in its set (R212, R222). -/
theorem checkCfg_eq_ok_iff (fmt : FmtCode) (bpp : Nat) (f : Format) :
    checkCfg fmt bpp = .ok f ↔ fmt = formatCode f ∧ legalPair f bpp = true := by
  have hset : ∀ g, legalPair g bpp = true → bppInRange bpp = true := by
    intro g hg
    cases g <;> simp only [legalPair, bppSet, List.mem_cons, List.not_mem_nil, or_false, decide_eq_true_eq] at hg <;>
      simp only [bppInRange, Bool.and_eq_true, decide_eq_true_eq] <;> omega
  unfold checkCfg
  cases fmt <;> cases f <;>
    simp only [formatOf, formatCode, reduceCtorEq, false_and, iff_false, true_and] <;>
    split_ifs <;> simp_all

theorem checkCfg_formatCode {f : Format} {bpp : Nat} (h : legalPair f bpp = true) :
    checkCfg (formatCode f) bpp = .ok f :=
  (checkCfg_eq_ok_iff _ _ _).2 ⟨rfl, h⟩

/-- A command with a legal configuration goes on to its record. -/
theorem withConfig_of_legal {f : Format} {bpp : Nat} (h : legalPair f bpp = true) (k : Format → ExecResult) :
    withConfig (formatCode f) bpp k = k f := by
  simp [withConfig, checkCfg_formatCode h]

/-- All that a configuration check can lead to: the command goes on with a legal pair, or reports an error. -/
theorem withConfig_cases (fmt : FmtCode) (bpp : Nat) (k : Format → ExecResult) :
    (∃ f, fmt = formatCode f ∧ legalPair f bpp = true ∧ withConfig fmt bpp k = k f) ∨
      ∃ e, checkCfg fmt bpp = .error e ∧ withConfig fmt bpp k = .err e := by
  cases h : checkCfg fmt bpp with
  | error e => exact .inr ⟨e, rfl, by simp [withConfig, h]⟩
  | ok f =>
    obtain ⟨hf, hl⟩ := (checkCfg_eq_ok_iff fmt bpp f).1 h
    exact .inl ⟨f, hf, hl, by simp [withConfig, h]⟩

/-- The errors CheckCfg reports (R222). -/
theorem checkCfg_error {fmt : FmtCode} {bpp : Nat} {e : CmdError} (h : checkCfg fmt bpp = .error e) :
    e = .formatReserved ∨ e = .bppRange ∨ e = .pairUnsupported := by
  unfold checkCfg at h
  split at h
  · injection h with h; exact .inl h.symm
  · split_ifs at h <;> injection h with h <;> simp [← h]

theorem runSteps_zero (s : State) : runSteps 0 s = .next s := rfl

theorem runSteps_succ {s t : State} (k : Nat) (h : step s = .next t) : runSteps (k + 1) s = runSteps k t := by
  simp [runSteps, h]

theorem ifShaped_true (k : ExecResult) : ifShaped true k = k := rfl

theorem ifShaped_false (k : ExecResult) : ifShaped false k = .refuse := rfl

/-- All that FMTLOOKUP can do: the name decides first, then the shape of the record (R210, R227). -/
theorem fmtlookupResult_cases (params : Params) (r : Record) :
    (recordName r = none ∧ fmtlookupResult params r = .refuse) ∨
      ∃ name, recordName r = some name ∧
        ((lookupFormat params name = none ∧ fmtlookupResult params r = .err .nameUnknown) ∨
          ∃ f, lookupFormat params name = some f ∧
            fmtlookupResult params r = ifShaped (nameShape r) (.ok [.format (formatCode f).toField])) := by
  unfold fmtlookupResult
  cases recordName r with
  | none => simp
  | some name => cases h : lookupFormat params name <;> simp [h]

/-- All that the engine step can do (R31). -/
theorem engineStep_cases (s : State) :
    (s.phase = .running ∧ ∃ e, s.pending = [e] ∧ engineStep s = completeCommand codeOk 0#4 0 0 (emitElement e [] s)) ∨
      (s.phase = .running ∧ ∃ e e' rest, s.pending = e :: e' :: rest ∧ engineStep s = emitElement e (e' :: rest) s) ∨
      ((s.phase ≠ .running ∨ s.pending = []) ∧ engineStep s = s) := by
  unfold engineStep
  cases hp : s.phase <;> cases hl : s.pending with
  | nil => simp
  | cons e l => cases l <;> simp

/-- All that the host's read of OUT can do (R257). -/
theorem takeElement_cases (s : State) :
    (∃ e, s.out[s.taken]? = some e ∧ takeElement s = { s with taken := s.taken + 1, seen := s.seen ++ [.element e] }) ∨
      (s.out[s.taken]? = none ∧ takeElement s = s) := by
  unfold takeElement
  cases h : s.out[s.taken]? <;> simp

theorem refuseWord_of_ready {s : State} (h : Ready s) : refuseWord s = .next (refusedState s) := by
  unfold refuseWord
  cases hp : s.phase <;> simp_all [refusedState, markRefused]

theorem refuseWord_of_running {s : State} (h : s.phase = .running) : refuseWord s = .fault .issueWhileRunning := by
  simp [refuseWord, h]

theorem runPresented_of_ok {s : State} {i : Instr} (h : decode s.port.word = .ok i) : runPresented s = exec i s := by
  simp [runPresented, h]

theorem runPresented_of_error {s : State} {e : Reject} (h : decode s.port.word = .error e) :
    runPresented s = refuseWord s := by
  simp [runPresented, h]

theorem step_of_nil {s : State} (h : s.script = []) : step s = .next (engineStep s) := by
  simp [step, h]

theorem step_of_cons {s : State} {m : HostMove} {rest : List HostMove} (h : s.script = m :: rest) :
    step s = hostMove m (dropMove rest s) := by
  simp [step, h]

/-- All that a step which answers a next state can be. -/
theorem step_next_cases {s t : State} (h : step s = .next t) :
    (s.script = [] ∧ t = engineStep s) ∨
      ∃ m rest, s.script = m :: rest ∧
        ((m = .pass ∧ t = engineStep (dropMove rest s)) ∨
          (∃ r, m = .issue r ∧ runPresented (presentRequest r (dropMove rest s)) = .next t) ∨
          (m = .reset ∧ t = resetBlock (dropMove rest s)) ∨
          (m = .takeElement ∧ t = takeElement (dropMove rest s)) ∨
          (m = .readStatus ∧ t = readStatus (dropMove rest s)) ∨
          (m = .modifyInput ∧ Ready s ∧ t = dropMove rest s)) := by
  cases hs : s.script with
  | nil => rw [step_of_nil hs] at h; exact .inl ⟨rfl, by injection h with h; exact h.symm⟩
  | cons m rest =>
    rw [step_of_cons hs] at h
    refine .inr ⟨m, rest, rfl, ?_⟩
    cases m with
    | pass => injection h with h; exact .inl ⟨rfl, h.symm⟩
    | issue r => exact .inr (.inl ⟨r, rfl, h⟩)
    | reset => injection h with h; exact .inr (.inr (.inl ⟨rfl, h.symm⟩))
    | takeElement => injection h with h; exact .inr (.inr (.inr (.inl ⟨rfl, h.symm⟩)))
    | readStatus => injection h with h; exact .inr (.inr (.inr (.inr (.inl ⟨rfl, h.symm⟩))))
    | modifyInput =>
      refine .inr (.inr (.inr (.inr (.inr ⟨rfl, ?_⟩))))
      simp only [hostMove, modifyInput, dropMove_phase] at h
      cases hp : s.phase <;> simp_all [Ready]

end Sys2Proof.Machine

namespace Sys2Proof

/-! The fields of an assembled word are the fields given (R81, R91). -/

section wordOf

variable (opc : BitVec 8) (fmt : BitVec 2) (bpp : BitVec 4) (ch ww : BitVec 2)

theorem opcField_wordOf : opcField (wordOf opc fmt bpp ch ww) = opc := by
  simp only [opcField, wordOf]
  ext i hi
  interval_cases i <;> simp

theorem fmtField_wordOf : fmtField (wordOf opc fmt bpp ch ww) = fmt := by
  simp only [fmtField, wordOf]
  ext i hi
  interval_cases i <;> simp

theorem bppField_wordOf : bppField (wordOf opc fmt bpp ch ww) = bpp := by
  simp only [bppField, wordOf]
  ext i hi
  interval_cases i <;> simp

theorem chField_wordOf : chField (wordOf opc fmt bpp ch ww) = ch := by
  simp only [chField, wordOf]
  ext i hi
  interval_cases i <;> simp

theorem wwField_wordOf : wwField (wordOf opc fmt bpp ch ww) = ww := by
  simp only [wwField, wordOf]
  ext i hi
  interval_cases i <;> simp

theorem rsvField_wordOf : rsvField (wordOf opc fmt bpp ch ww) = 0#14 := by
  simp only [rsvField, wordOf]
  ext i hi
  interval_cases i <;> simp

end wordOf

end Sys2Proof
end

