-- ==== Sys2Proof/Laws/PerInstr.lean ====
section
/-! SUPPORT. The statements made of every command as syntax, one lemma per constructor. -/

namespace Sys2Proof.Laws.CommandWord

/-- The word of a command carries its opcode and leaves RSV and every field the command does not use 0 (R81, R87,
R88). -/
def Statement (i : Instr) : Prop :=
  opcField (encode i) = i.mnemonic.opc ∧ rsvField (encode i) = 0#14 ∧ unusedFieldsZero i.mnemonic (encode i) = true

/-- A word assembled from fields that are 0 where the operation does not use them has the form of R88. -/
theorem of_wordOf (m : Mnemonic) (fmt : BitVec 2) (bpp : BitVec 4) (ch ww : BitVec 2)
    (hf : m.usesFmt = true ∨ fmt = 0#2) (hb : m.usesBpp = true ∨ bpp = 0#4)
    (hc : m.usesCh = true ∨ ch = 0#2) (hw : m.usesWw = true ∨ ww = 0#2) :
    opcField (wordOf m.opc fmt bpp ch ww) = m.opc ∧ rsvField (wordOf m.opc fmt bpp ch ww) = 0#14 ∧
      unusedFieldsZero m (wordOf m.opc fmt bpp ch ww) = true := by
  refine ⟨opcField_wordOf .., rsvField_wordOf .., ?_⟩
  simp only [unusedFieldsZero, fmtField_wordOf, bppField_wordOf, chField_wordOf, wwField_wordOf, Bool.and_eq_true,
    Bool.or_eq_true, beq_iff_eq]
  exact ⟨⟨⟨hf, hb⟩, hc⟩, hw⟩

theorem getbits (ww : WidthCode) : Statement (.getbits ww) :=
  of_wordOf .getbits _ _ _ _ (.inr rfl) (.inr rfl) (.inr rfl) (.inl rfl)

theorem setbits (ww : WidthCode) : Statement (.setbits ww) :=
  of_wordOf .setbits _ _ _ _ (.inr rfl) (.inr rfl) (.inr rfl) (.inl rfl)

theorem getbit (ww : WidthCode) : Statement (.getbit ww) :=
  of_wordOf .getbit _ _ _ _ (.inr rfl) (.inr rfl) (.inr rfl) (.inl rfl)

theorem setbit (ww : WidthCode) : Statement (.setbit ww) :=
  of_wordOf .setbit _ _ _ _ (.inr rfl) (.inr rfl) (.inr rfl) (.inl rfl)

theorem pixdec (fmt : FmtCode) (bpp : Nat) : Statement (.pixdec fmt bpp) :=
  of_wordOf .pixdec _ _ _ _ (.inl rfl) (.inl rfl) (.inr rfl) (.inr rfl)

theorem pixenc (fmt : FmtCode) (bpp : Nat) : Statement (.pixenc fmt bpp) :=
  of_wordOf .pixenc _ _ _ _ (.inl rfl) (.inl rfl) (.inr rfl) (.inr rfl)

theorem rowdec (fmt : FmtCode) (bpp : Nat) : Statement (.rowdec fmt bpp) :=
  of_wordOf .rowdec _ _ _ _ (.inl rfl) (.inl rfl) (.inr rfl) (.inr rfl)

theorem rowenc (fmt : FmtCode) (bpp : Nat) : Statement (.rowenc fmt bpp) :=
  of_wordOf .rowenc _ _ _ _ (.inl rfl) (.inl rfl) (.inr rfl) (.inr rfl)

theorem tiledec (fmt : FmtCode) (bpp : Nat) : Statement (.tiledec fmt bpp) :=
  of_wordOf .tiledec _ _ _ _ (.inl rfl) (.inl rfl) (.inr rfl) (.inr rfl)

theorem tileenc (fmt : FmtCode) (bpp : Nat) : Statement (.tileenc fmt bpp) :=
  of_wordOf .tileenc _ _ _ _ (.inl rfl) (.inl rfl) (.inr rfl) (.inr rfl)

theorem sheetdec (fmt : FmtCode) (bpp : Nat) : Statement (.sheetdec fmt bpp) :=
  of_wordOf .sheetdec _ _ _ _ (.inl rfl) (.inl rfl) (.inr rfl) (.inr rfl)

theorem sheetenc (fmt : FmtCode) (bpp : Nat) : Statement (.sheetenc fmt bpp) :=
  of_wordOf .sheetenc _ _ _ _ (.inl rfl) (.inl rfl) (.inr rfl) (.inr rfl)

theorem matchPix : Statement .matchPix :=
  of_wordOf .matchPix _ _ _ _ (.inr rfl) (.inr rfl) (.inr rfl) (.inr rfl)

theorem applyPal : Statement .applyPal :=
  of_wordOf .applyPal _ _ _ _ (.inr rfl) (.inr rfl) (.inr rfl) (.inr rfl)

theorem graypal (bpp : Nat) (ch : ChCode) : Statement (.graypal bpp ch) :=
  of_wordOf .graypal _ _ _ _ (.inr rfl) (.inl rfl) (.inl rfl) (.inr rfl)

theorem imgheight (bpp : Nat) : Statement (.imgheight bpp) :=
  of_wordOf .imgheight _ _ _ _ (.inr rfl) (.inl rfl) (.inr rfl) (.inr rfl)

theorem cfgcheck (fmt : FmtCode) (bpp : Nat) : Statement (.cfgcheck fmt bpp) :=
  of_wordOf .cfgcheck _ _ _ _ (.inl rfl) (.inl rfl) (.inr rfl) (.inr rfl)

theorem fmtlookup : Statement .fmtlookup :=
  of_wordOf .fmtlookup _ _ _ _ (.inr rfl) (.inr rfl) (.inr rfl) (.inr rfl)

theorem fmtname (fmt : FmtCode) : Statement (.fmtname fmt) :=
  of_wordOf .fmtname _ _ _ _ (.inl rfl) (.inr rfl) (.inr rfl) (.inr rfl)

theorem bpplist (fmt : FmtCode) : Statement (.bpplist fmt) :=
  of_wordOf .bpplist _ _ _ _ (.inl rfl) (.inr rfl) (.inr rfl) (.inr rfl)

end Sys2Proof.Laws.CommandWord
end

