-- ==== Sys2Proof/Tests/Slice0.lean ====
section
/-! SUPPORT. Tests of the model against the words and vectors of spec/95_test_vectors.md, the smoke tests of the
well-formedness checks, and a witness for the hypotheses of each statement. Each expected value is the spec's own or computed by hand
from its rules. -/

namespace Sys2Proof.Tests

open Sys2Proof Sys2Proof.Machine

/-- A reset state in which the host presents a transaction. -/
def present (w : CmdWord) (r : Record) : State := { State.reset with port := ⟨w, r⟩ }

/-- A reset state whose host has these moves to come. -/
def scripted (ms : List HostMove) : State := { State.reset with script := ms }

/-- A state in which a command with these elements is RUNNING and the host has these moves to come. -/
def runningWith (es : List Element) (ms : List HostMove) : State :=
  { startedWith es (present 0x00000030#32 .empty) with script := ms }

/-- What a test compares of a next state. -/
structure View where
  phase : Phase
  code : BitVec 4
  sub : BitVec 4
  pos : Nat
  val : Nat
  pending : List Element
  refused : Bool
deriving DecidableEq, Repr

/-- The view of a next state. -/
def view (o : Host.Outcome State Fault Refusal) : Option View :=
  match o with
  | .next t => some ⟨t.phase, resultCode t.result, resultSub t.result, t.resultPos, t.resultVal, t.pending, t.refused⟩
  | .fault _ => none
  | .refused _ => none

/-- The view of an accepted command with elements to emit. -/
def emits (es : List Element) : Option View :=
  some ⟨.running, 15, 0, 0, 0, es, false⟩

/-- The view of a command completed at acceptance. -/
def ends (code sub : BitVec 4) (pos val : Nat) : Option View :=
  some ⟨.done, code, sub, pos, val, [], false⟩

/-- The view of a refused transaction presented after reset. -/
def refuses : Option View :=
  some ⟨.idle, 15, 0, 0, 0, [], true⟩

/-- Decode the word and execute it with the record, from reset. -/
def run1 (w : CmdWord) (r : Record) : Option View :=
  view (step (scripted [.issue ⟨w, r⟩]))

/-- pal3 of the vectors of section 2.4. -/
def pal3 : Palette := ⟨3, [[0, 0, 0], [255, 0, 0], [255, 0, 0], [0, 255, 0]]⟩

/-! ### Well-formedness: an ill-formed term for each check -/

theorem test_wf_bpp_field_of_five_bits : (Instr.pixdec .planar 16).wf = false := by decide
theorem test_wf_pixenc : (Instr.pixenc .gba 16).wf = false := by decide
theorem test_wf_rowdec : (Instr.rowdec .planar 16).wf = false := by decide
theorem test_wf_rowenc : (Instr.rowenc .planar 16).wf = false := by decide
theorem test_wf_tiledec : (Instr.tiledec .planar 16).wf = false := by decide
theorem test_wf_tileenc : (Instr.tileenc .planar 16).wf = false := by decide
theorem test_wf_sheetdec : (Instr.sheetdec .planar 16).wf = false := by decide
theorem test_wf_sheetenc : (Instr.sheetenc .planar 16).wf = false := by decide
theorem test_wf_graypal : (Instr.graypal 16 .one).wf = false := by decide
theorem test_wf_imgheight : (Instr.imgheight 16).wf = false := by decide
theorem test_wf_cfgcheck : (Instr.cfgcheck .gba 16).wf = false := by decide
theorem test_shape_word : bitfieldShape .w8 256 0 0 = false := by decide
theorem test_shape_start : bitfieldShape .w8 0 65 0 = false := by decide
theorem test_shape_n : bitfieldShape .w8 0 0 65 = false := by decide
theorem test_shape_value : setBitfieldShape .w64 0 0 0 (2 ^ 64) = false := by decide
theorem test_shape_bit : bitShape .w8 0 65 = false := by decide
theorem test_shape_b : setBitShape .w8 0 0 (2 ^ 64) = false := by decide
theorem test_shape_tile : tileShape 2 (List.replicate 15 0) = false := by decide
theorem test_shape_coord : coordShape 8 = false := by decide
theorem test_shape_row : rowShape [0, 0, 0, 0, 0, 0, 0] = false := by decide
theorem test_shape_tpix : tpixShape (List.replicate 63 0) = false := by decide
theorem test_shape_palette_channels : paletteShape Params.default ⟨2, []⟩ = false := by decide
theorem test_shape_palette_entry : paletteShape Params.default ⟨3, [[0, 0]]⟩ = false := by decide
theorem test_shape_palette_cap : paletteShape { Params.default with palCap := some 1 } ⟨1, [[0], [1]]⟩ = false := by decide
theorem test_shape_pixch_zero : matchShape Params.default [] 0 ⟨1, []⟩ = false := by decide
theorem test_shape_pix_colour : matchShape Params.default [[0, 0]] 3 pal3 = false := by decide
theorem test_shape_idx_cap : applyShape { Params.default with maxElems := some 1 } [0, 0] pal3 = false := by decide

/-! ### Decoding: a word written out from R87 and R91 for every constructor -/

theorem test_decode_getbits : decode 0x00030001#32 = .ok (.getbits .w64) := by decide
theorem test_decode_setbits : decode 0x00010002#32 = .ok (.setbits .w16) := by decide
theorem test_decode_getbit : decode 0x00000003#32 = .ok (.getbit .w8) := by decide
theorem test_decode_setbit : decode 0x00020004#32 = .ok (.setbit .w32) := by decide
theorem test_decode_pixdec : decode 0x00000910#32 = .ok (.pixdec .interwined 2) := by decide
theorem test_decode_pixenc : decode 0x00000D11#32 = .ok (.pixenc .interwined 3) := by decide
theorem test_decode_rowdec : decode 0x00000812#32 = .ok (.rowdec .planar 2) := by decide
theorem test_decode_rowenc : decode 0x00002213#32 = .ok (.rowenc .gba 8) := by decide
theorem test_decode_tiledec : decode 0x00001314#32 = .ok (.tiledec .reserved 4) := by decide
theorem test_decode_tileenc : decode 0x00001215#32 = .ok (.tileenc .gba 4) := by decide
theorem test_decode_sheetdec : decode 0x00003C20#32 = .ok (.sheetdec .planar 15) := by decide
theorem test_decode_sheetenc : decode 0x00001221#32 = .ok (.sheetenc .gba 4) := by decide
theorem test_decode_match : decode 0x00000030#32 = .ok .matchPix := by decide
theorem test_decode_apply : decode 0x00000031#32 = .ok .applyPal := by decide
theorem test_decode_graypal : decode 0x0000C832#32 = .ok (.graypal 2 .reserved) := by decide
theorem test_decode_imgheight : decode 0x00000840#32 = .ok (.imgheight 2) := by decide
theorem test_decode_cfgcheck : decode 0x00001650#32 = .ok (.cfgcheck .gba 5) := by decide
theorem test_decode_fmtlookup : decode 0x00000051#32 = .ok .fmtlookup := by decide
theorem test_decode_fmtname : decode 0x00000352#32 = .ok (.fmtname .reserved) := by decide
theorem test_decode_bpplist : decode 0x00000253#32 = .ok (.bpplist .gba) := by decide
theorem test_decode_bit_by_bit : -- SHEETENC.G.bpp4: RSV, WW 00, CH 00, BPP 0100, FMT 10, OPC 0010_0001
    decode 0b00000000000000_00_00_0100_10_00100001#32 = .ok (.sheetenc .gba 4) := by decide
theorem test_decode_opcode_zero : decode 0x00000000#32 = .error .unassignedOpcode := by decide -- V90
theorem test_decode_reserved_bit : decode 0x80000820#32 = .error .reservedBits := by decide -- V93
theorem test_decode_unused_field : decode 0x00010820#32 = .error .unusedField := by decide -- V94
theorem test_decode_bpplist_with_bpp : decode 0x00001253#32 = .error .unusedField := by decide -- V88
theorem test_encode_graypal : encode (.graypal 2 .four) = 0x00008832#32 := by decide
theorem test_table_word : decodeTableWord 32 0x1221 = some (.sheetenc .gba 4) := by decide
theorem test_assemble_text : assembleText "GRAYPAL" ["bpp2", "ch4"] = some 0x00008832#32 := by decide
theorem test_asm_text : asmText (.graypal 2 .four) = "GRAYPAL.bpp2.ch4" := by decide

/-- R91: the suffixes of a command assemble to its word. -/
theorem assemble_instrSuffixes (i : Instr) : assemble i.mnemonic (instrSuffixes i) = encode i := by
  cases i <;> rfl

/-! ### Commands, by vector -/

theorem test_getbits_truncates : run1 0x00000001#32 (.wordStartN 0xB4 5 4) = emits [.word 0x5] := by decide -- V3
theorem test_getbits_whole_word :
    run1 0x00030001#32 (.wordStartN (2 ^ 64 - 1) 0 64) = emits [.word 0xFFFFFFFFFFFFFFFF] := by decide -- V8
theorem test_setbits_masks_value :
    run1 0x00010002#32 (.wordStartNValue 0 4 8 0x1AB) = emits [.word 0x0AB0] := by decide -- V14
theorem test_setbits_truncates :
    run1 0x00000002#32 (.wordStartNValue 0x00 6 4 0xF) = emits [.word 0xC0] := by decide -- V11
theorem test_getbit_top : run1 0x00030003#32 (.wordBit (2 ^ 63) 63) = emits [.word 1] := by decide -- V21
theorem test_getbit_past_width : run1 0x00000003#32 (.wordBit 0x80 8) = emits [.word 0] := by decide -- V20
theorem test_setbit_masks_b : run1 0x00000004#32 (.wordBitB 0xFF 0 2) = emits [.word 0xFE] := by decide -- V23
theorem test_setbit_past_width : run1 0x00000004#32 (.wordBitB 0x12 9 1) = emits [.word 0x12] := by decide -- V24

/-- Bytes 0 and 8 of a 16-byte tile set, all others 0. -/
def tileW11 : List Byte := [0x55, 0, 0, 0, 0, 0, 0, 0, 0x33, 0, 0, 0, 0, 0, 0, 0]

theorem test_pixdec_planar : run1 0x00000810#32 (.tileYX tileW11 0 3) = emits [.index 3] := by decide -- W11
theorem test_pixdec_interwined : run1 0x00000910#32 (.tileYX tileW11 4 3) = emits [.index 1] := by decide -- V39d
theorem test_pixenc_gba :
    run1 0x00001211#32 (.tileYXV (List.replicate 32 0xFF) 7 6 0) =
      emits [.bytes (List.replicate 31 0xFF ++ [0xF0])] := by decide -- V39i
theorem test_pixenc_interwined :
    run1 0x00000D11#32 (.tileYXV (List.replicate 24 0) 2 2 5) =
      emits [.bytes [0, 0, 0, 0, 0x20, 0, 0, 0, 0, 0, 0, 0, 0, 0, 0, 0, 0, 0, 0x20, 0, 0, 0, 0, 0]] := by decide -- V39l
theorem test_rowdec_planar :
    run1 0x00000812#32 (.tileY [0x55, 0xAA, 0x55, 0xAA, 0x55, 0xAA, 0x55, 0xAA, 0x33, 0x66, 0xCC, 0x99, 0x33, 0x66,
      0xCC, 0x99] 1) = emits [.indices [1, 2, 3, 0, 1, 2, 3, 0]] := by decide -- V39m
theorem test_rowdec_gba :
    run1 0x00001212#32 (.tileY ([0x21, 0x43, 0x65, 0x87] ++ List.replicate 28 0) 0) =
      emits [.indices [1, 2, 3, 4, 5, 6, 7, 8]] := by decide -- R132
theorem test_rowenc_gba_masks :
    run1 0x00001213#32 (.row [16, 17, 18, 19, 0x20, 0x21, 0xFF, 0x100]) =
      emits [.bytes [0x10, 0x32, 0x10, 0x0F]] := by decide -- V34
theorem test_rowenc_planar :
    run1 0x00000C13#32 (.row [0, 1, 2, 3, 4, 5, 6, 7]) = emits [.bytes [0x55, 0x33, 0x0F]] := by decide -- V28
theorem test_tiledec_planar :
    run1 0x00000814#32 (.tile (List.replicate 16 0xFF)) = emits [.indices (List.replicate 64 3)] := by decide -- V39n
theorem test_tiledec_bpp_nine : run1 0x00002414#32 .other = ends 1 0 0 0 := by decide -- V39q
theorem test_tileenc_interwined :
    run1 0x00000D15#32 (.tpix ((List.range 64).map (· % 8))) =
      emits [.bytes ((List.range 16).map (fun k => if k % 2 = 0 then 0x55 else 0x33) ++ List.replicate 8 0x0F)] := by
  decide -- V37
theorem test_tileenc_planar_diagonal :
    run1 0x00000815#32 (.tpix ((List.range 64).map fun k => (k / 8 + k % 8) % 4)) =
      emits [.bytes [0x55, 0xAA, 0x55, 0xAA, 0x55, 0xAA, 0x55, 0xAA, 0x33, 0x66, 0xCC, 0x99, 0x33, 0x66, 0xCC,
        0x99]] := by decide -- V39a
theorem test_sheetdec_pads :
    run1 0x00000820#32 (.bytesIn (List.replicate 17 0xFF)) =
      emits (List.replicate 8 (.indices (List.replicate 8 3 ++ List.replicate 120 0))) := by decide -- V40d
theorem test_sheetdec_partial_tile :
    run1 0x00000820#32 (.bytesIn [0xFF]) = emits (List.replicate 8 (.indices (List.replicate 128 0))) := by
  decide -- V40a
theorem test_sheetenc_errors :
    run1 0x00000821#32 (.grid (List.replicate 60 0) 12 5) = ends 2 0 0 0 ∧
      run1 0x00000821#32 (.grid (List.replicate 63 0) 8 8) = ends 2 2 0 0 := by decide -- V42
theorem test_sheetenc_second_tile : -- column 15 of a 16 × 8 grid is column 7 of tile 1
    (gridTile (List.replicate 15 0 ++ 1 :: List.replicate 112 0) 16 0 1).take 8 = [0, 0, 0, 0, 0, 0, 0, 1] := by
  decide -- R165
theorem test_match_least_index :
    run1 0x00000030#32 (.pixPal [[255, 0, 0], [0, 255, 0], [0, 0, 0]] 3 pal3) =
      emits [.index 1, .index 3, .index 0] := by decide -- V50
theorem test_match_errors :
    run1 0x00000030#32 (.pixPal [] 4 pal3) = ends 3 1 0 0 ∧
      run1 0x00000030#32 (.pixPal [[0, 0, 0], [1, 2, 3], [9, 9, 9]] 3 pal3) = ends 3 0 1 0 := by decide -- V52, V53
theorem test_apply :
    run1 0x00000031#32 (.idxPal [0, 3, 1] pal3) =
      emits [.colour [0, 0, 0], .colour [0, 255, 0], .colour [255, 0, 0]] := by decide -- V56
theorem test_apply_error : run1 0x00000031#32 (.idxPal [0, 4, 9] pal3) = ends 4 0 1 4 := by decide -- V57
theorem test_graypal_four_channels :
    run1 0x00008832#32 .empty = emits [.colour [0, 0, 0, 255], .colour [85, 85, 85, 255],
      .colour [170, 170, 170, 255], .colour [255, 255, 255, 255]] := by decide -- V61
theorem test_graypal_bpp_before_channels : run1 0x0000C032#32 .empty = ends 1 0 0 0 := by decide -- V66
theorem test_imgheight : run1 0x00000440#32 (.numBytes 1025) = emits [.nat 72] := by decide -- V70
theorem test_imgheight_bpp_nine : run1 0x00002440#32 (.numBytes 5) = ends 1 0 0 0 := by decide -- V71
theorem test_cfgcheck_ok : run1 0x00001250#32 .empty = ends 0 0 0 0 := by decide -- P1 step 1
theorem test_cfgcheck_pair : run1 0x00001650#32 .empty = ends 1 1 0 0 := by decide -- V80
theorem test_fmtlookup : run1 0x00000051#32 (.name "gba") = emits [.format 2] := by decide -- V81
theorem test_fmtlookup_unknown : run1 0x00000051#32 (.name "Planar") = ends 1 4 0 0 := by decide -- V83
theorem test_fmtname : run1 0x00000152#32 .empty = emits [.name "interwined"] := by decide -- V84
theorem test_fmtname_reserved : run1 0x00000352#32 .empty = ends 1 2 0 0 := by decide -- V85
theorem test_bpplist : run1 0x00000253#32 .empty = emits [.nat 4, .nat 8] := by decide -- V87
theorem test_refused_tile : run1 0x00000814#32 (.tile (List.replicate 15 0)) = refuses := by decide -- V39r
theorem test_refused_word : run1 0x00000006#32 .empty = refuses := by decide -- P3 step 7
theorem test_refused_palette : run1 0x00000030#32 (.pixPal [] 2 ⟨2, []⟩) = refuses := by decide -- V59b
theorem test_refused_capacity : -- R8, R90
    view (exec (.imgheight 1)
      { present 0x00000440#32 (.numBytes 5) with params := { Params.default with maxBytes := some 4 } }) = refuses := by
  decide

/-! ### The step -/

theorem test_engine_last_element : -- R31: the last element completes the command
    view (step (runningWith [.index 7] [])) = ends 0 0 0 0 := by decide
theorem test_issue_while_running : -- P5 step 3
    step (runningWith [.index 7] [.issue ⟨0x00000030#32, .empty⟩]) = .fault .issueWhileRunning := rfl
theorem test_reset_while_running : -- P5 step 4
    view (step (runningWith [.index 7, .index 8] [.reset])) = some ⟨.idle, 15, 0, 0, 0, [], false⟩ := by decide
theorem test_reset_keeps_refusal_mark : -- R35
    view (step { scripted [.reset] with refused := true }) = some ⟨.idle, 15, 0, 0, 0, [], true⟩ := by decide
theorem test_fetch_word : -- the first instruction after reset
    view (step (State.reset.withFetchWord 32 0x1213)) = emits [.bytes [0, 0, 0, 0]] := by decide
theorem test_encode_path : -- R92: MATCH then SHEETENC of one 8 × 8 tile of pal3's last colour
    encodePath Params.default .gba 4 (List.replicate 64 [0, 255, 0]) 3 8 8 pal3 =
      .ok [.bytes (List.replicate 32 0x33)] := by decide
theorem test_decode_path_of_nothing : decodePath Params.default .planar 2 .one none [] = .ok [] := by decide -- R92, R234

/-! ### Witnesses: concrete states and operands that meet the hypotheses of each statement together; for a statement with
several clauses one for each clause, at the edges of its range. -/

theorem witness_DecodeOfEncodeIsIdentity : (Instr.pixdec .reserved 15).wf = true ∧ (Instr.graypal 0 .reserved).wf = true := by
  decide
theorem witness_EncodeOfDecodeIsIdentity : decode 0x00003F20#32 = .ok (.sheetdec .reserved 15) := by decide
theorem witness_DecodeFollowsTheOpcodeMap :
    Mnemonic.getbits.selects 0x00030001#32 = true ∧ decode 0x00030001#32 = .ok (.getbits .w64) := by decide
theorem witness_HostResetRestoresTheResetState :
    (runningWith [.index 7] [.reset]).script = [.reset] ∧ (scripted [.reset, .pass]).script = [.reset, .pass] := by decide
theorem witness_StepRunsTheDecodedCommand :
    (scripted [.issue ⟨0x00000053#32, .empty⟩]).script = [.issue ⟨0x00000053#32, .empty⟩] ∧
      decode 0x00000053#32 = .ok (.bpplist .planar) := by decide
theorem witness_ReservedWordIsRefused :
    (scripted [.issue ⟨0x00000006#32, .empty⟩]).script = [.issue ⟨0x00000006#32, .empty⟩] ∧
      decode 0x00000006#32 = .error .unassignedOpcode ∧ Ready (scripted [.issue ⟨0x00000006#32, .empty⟩]) := by decide
theorem witness_IssueWhileRunningHasNoMove :
    (runningWith [.index 7] [.issue ⟨0x00000006#32, .empty⟩]).phase = .running ∧
      (runningWith [.index 7] [.issue ⟨0x00000006#32, .empty⟩]).script = [.issue ⟨0x00000006#32, .empty⟩] := by decide
theorem witness_EngineStepEmitsOneElement_last :
    (runningWith [.index 7] []).phase = .running ∧ (runningWith [.index 7] []).pending = [.index 7] ∧
      (runningWith [.index 7] []).script = [] := by decide
theorem witness_EngineStepEmitsOneElement_more :
    (runningWith [.index 7, .index 8] [.pass]).phase = .running ∧
      (runningWith [.index 7, .index 8] [.pass]).pending = [.index 7, .index 8] ∧
      (runningWith [.index 7, .index 8] [.pass]).script = [.pass] := by decide
theorem witness_EngineStepEmitsOneElement_idle :
    State.reset.phase ≠ .running ∧ State.reset.script = [] ∧ (scripted [.pass]).phase ≠ .running ∧
      (scripted [.pass]).script = [.pass] := by decide
theorem witness_RunningCommandCompletes :
    (runningWith [.index 7, .index 8] []).phase = .running ∧ (runningWith [.index 7, .index 8] []).script = [] ∧
      (runningWith [.index 7, .index 8] []).pending ≠ [] ∧ 1 < (runningWith [.index 7, .index 8] []).pending.length := by
  decide

/-- A command has emitted one element and the host has not read it. -/
def oneOut (ms : List HostMove) : State := { runningWith [.index 8] ms with out := [.index 7], cur := 1, total := 2 }

theorem witness_HostReadsLeaveTheBlockAlone_status : (oneOut [.readStatus]).script = [.readStatus] := by decide
theorem witness_HostReadsLeaveTheBlockAlone_element :
    (oneOut [.takeElement]).script = [.takeElement] ∧
      (oneOut [.takeElement]).out[(oneOut [.takeElement]).taken]? = some (.index 7) := by decide
theorem witness_HostReadsLeaveTheBlockAlone_nothing :
    (scripted [.takeElement]).script = [.takeElement] ∧
      (scripted [.takeElement]).out.length ≤ (scripted [.takeElement]).taken := by decide
theorem witness_InputChangeWhileRunningHasNoMove :
    (runningWith [.index 7] [.modifyInput]).script = [.modifyInput] ∧
      (runningWith [.index 7] [.modifyInput]).phase = .running := by decide
theorem witness_InputChangeWhileRunningHasNoMove_ready :
    (scripted [.modifyInput]).script = [.modifyInput] ∧ Ready (scripted [.modifyInput]) := by decide
theorem witness_EveryStepKeepsTheBlockInvariant :
    BlockInv (runningWith [.index 7] []) ∧ (runningWith [.index 7] []).script = [] := by decide
theorem witness_EveryStepKeepsTheBlockInvariant_step :
    step (runningWith [.index 7] []) = .next (engineStep (runningWith [.index 7] [])) := rfl
theorem witness_RefusalMarkAndParametersPersist :
    step { scripted [.reset] with refused := true } = .next (resetBlock { State.reset with refused := true }) := rfl
theorem witness_EmittedElementsNeverChange :
    step (runningWith [.index 7, .index 8] [.pass]) =
      .next (emitElement (.index 7) [.index 8] (runningWith [.index 7, .index 8] [])) := rfl
theorem witness_CommandFrame_started :
    exec (.fmtname .gba) (present 0x00000252#32 .empty) =
      .next (startedWith [.name "gba"] (present 0x00000252#32 .empty)) := rfl
theorem witness_CommandFrame_refused :
    exec .matchPix (present 0x00000030#32 .other) = .next (refusedState (present 0x00000030#32 .other)) := rfl
theorem witness_CommandsEndOnlyAsTheTableSays :
    exec (.bpplist .reserved) (present 0x00000353#32 .empty) =
      .next (failedWith 1 2 0 0 (present 0x00000353#32 .empty)) := rfl
theorem witness_OutcomeDependsOnlyOnTheTransaction :
    Ready (present 0x00000053#32 .empty) ∧ Ready { present 0x00000053#32 .empty with out := [.index 7], cur := 1 } ∧
      (present 0x00000053#32 .empty).port = ⟨0x00000053#32, .empty⟩ ∧
      (present 0x00000053#32 .empty).params = Params.default := by decide
theorem witness_ForeignOrOversizeRecordIsRefused :
    Ready (present 0x00000432#32 .other) ∧
      configLegal (present 0x00000432#32 .other).params (present 0x00000432#32 .other).port.ops (.graypal 1 .one) = true ∧
      takesRecord (.graypal 1 .one) (present 0x00000432#32 .other).port.ops = false := by decide

theorem witness_ForeignOrOversizeRecordIsRefused_surplus :
    Ready (present 0x00000051#32 (.nameSurplus "gba")) ∧
      configLegal Params.default (present 0x00000051#32 (.nameSurplus "gba")).port.ops .fmtlookup = true ∧
      takesRecord .fmtlookup (present 0x00000051#32 (.nameSurplus "gba")).port.ops = false := by decide

/-- A state whose parameters bound every sequence by 1. -/
def bounded (w : CmdWord) (r : Record) : State :=
  { present w r with params := { Params.default with maxBytes := some 1, maxElems := some 1 } }

theorem witness_ForeignOrOversizeRecordIsRefused_bytes :
    Ready (bounded 0x00000420#32 (.bytesIn [1, 2])) ∧
      configLegal (bounded 0x00000420#32 (.bytesIn [1, 2])).params (bounded 0x00000420#32 (.bytesIn [1, 2])).port.ops (.sheetdec .planar 1) = true ∧
      (bounded 0x00000420#32 (.bytesIn [1, 2])).params.maxBytes = some 1 ∧
      (bounded 0x00000420#32 (.bytesIn [1, 2])).port.ops = .bytesIn [1, 2] ∧ 1 < [1, 2].length := by decide
theorem witness_ForeignOrOversizeRecordIsRefused_count :
    Ready (bounded 0x00000440#32 (.numBytes 2)) ∧
      configLegal (bounded 0x00000440#32 (.numBytes 2)).params (bounded 0x00000440#32 (.numBytes 2)).port.ops (.imgheight 1) = true ∧
      (bounded 0x00000440#32 (.numBytes 2)).params.maxBytes = some 1 ∧
      (bounded 0x00000440#32 (.numBytes 2)).port.ops = .numBytes 2 := by decide
theorem witness_ForeignOrOversizeRecordIsRefused_elems :
    Ready (bounded 0x00000031#32 (.idxPal [0, 0] pal3)) ∧
      configLegal (bounded 0x00000031#32 (.idxPal [0, 0] pal3)).params (bounded 0x00000031#32 (.idxPal [0, 0] pal3)).port.ops .applyPal = true ∧
      (bounded 0x00000031#32 (.idxPal [0, 0] pal3)).params.maxElems = some 1 ∧
      (bounded 0x00000031#32 (.idxPal [0, 0] pal3)).port.ops = .idxPal [0, 0] pal3 ∧ 1 < [0, 0].length := by decide
theorem witness_ForeignOrOversizeRecordIsRefused_grid :
    Ready (bounded 0x00000421#32 (.grid [0, 0] 8 8)) ∧
      configLegal (bounded 0x00000421#32 (.grid [0, 0] 8 8)).params (bounded 0x00000421#32 (.grid [0, 0] 8 8)).port.ops (.sheetenc .planar 1) = true ∧
      (bounded 0x00000421#32 (.grid [0, 0] 8 8)).port.ops = .grid [0, 0] 8 8 ∧ 1 < [0, 0].length := by decide
theorem witness_ForeignOrOversizeRecordIsRefused_pixels :
    Ready (bounded 0x00000030#32 (.pixPal [[0], [0]] 1 ⟨1, []⟩)) ∧
      configLegal (bounded 0x00000030#32 (.pixPal [[0], [0]] 1 ⟨1, []⟩)).params (bounded 0x00000030#32 (.pixPal [[0], [0]] 1 ⟨1, []⟩)).port.ops .matchPix = true ∧
      (bounded 0x00000030#32 (.pixPal [[0], [0]] 1 ⟨1, []⟩)).port.ops = .pixPal [[0], [0]] 1 ⟨1, []⟩ := by decide
theorem witness_IllegalConfigurationIsReported :
    Ready (present 0x00000310#32 .other) ∧
      FmtCode.planar ≠ .reserved ∧ ((0 : Nat) < 1 ∨ 8 < 0) ∧ ((9 : Nat) < 1 ∨ 8 < 9) ∧
      ((1 : Nat) ≤ 1 ∧ 1 ≤ 8 ∧ 1 ≠ 4 ∧ 1 ≠ 8) ∧ ((1 : Nat) ≤ 7 ∧ 7 ≤ 8 ∧ 7 ≠ 4 ∧ 7 ≠ 8) := by decide
theorem witness_GetbitsEmitsTheField :
    Ready (present 0x00000001#32 (.wordStartN 255 64 64)) ∧
      (present 0x00000001#32 (.wordStartN 255 64 64)).port.ops = .wordStartN 255 64 64 ∧ 255 < 2 ^ widthBits .w8 := by
  decide
theorem witness_SetbitsReplacesOnlyTheField :
    Ready (present 0x00000002#32 (.wordStartNValue 255 4 4 (2 ^ 64 - 1))) ∧
      (present 0x00000002#32 (.wordStartNValue 255 4 4 (2 ^ 64 - 1))).port.ops =
        .wordStartNValue 255 4 4 (2 ^ 64 - 1) ∧ 255 < 2 ^ widthBits .w8 := by decide
theorem witness_GetbitEmitsTheBit :
    Ready (present 0x00000003#32 (.wordBit 255 64)) ∧ (present 0x00000003#32 (.wordBit 255 64)).port.ops = .wordBit 255 64 ∧
      255 < 2 ^ widthBits .w8 := by decide
theorem witness_SetbitReplacesOneBit :
    Ready (present 0x00000004#32 (.wordBitB 255 7 2)) ∧
      (present 0x00000004#32 (.wordBitB 255 7 2)).port.ops = .wordBitB 255 7 2 ∧ 255 < 2 ^ widthBits .w8 ∧
      2 < 2 ^ 64 := by decide
theorem witness_BitfieldLaws : 255 < 2 ^ 8 ∧ 4 + 4 ≤ 8 ∧ 0 + 4 ≤ 8 ∧ (4 + 4 ≤ 0 ∨ 0 + 4 ≤ 4) ∧ 7 < 8 := by decide
theorem witness_BitfieldRangesAreRefused :
    Ready (present 0x00000001#32 (.wordStartN 256 0 0)) ∧
      (present 0x00000001#32 (.wordStartN 256 0 0)).port.ops = .wordStartN 256 0 0 ∧ 2 ^ widthBits .w8 ≤ 256 := by decide
theorem witness_BitfieldRangesAreRefused_setbits :
    Ready (present 0x00000002#32 (.wordStartNValue 0 0 65 0)) ∧
      (present 0x00000002#32 (.wordStartNValue 0 0 65 0)).port.ops = .wordStartNValue 0 0 65 0 ∧ 64 < 65 := by decide
theorem witness_BitfieldRangesAreRefused_getbit :
    Ready (present 0x00000003#32 (.wordBit 0 65)) ∧ (present 0x00000003#32 (.wordBit 0 65)).port.ops = .wordBit 0 65 ∧
      64 < 65 := by decide
theorem witness_BitfieldRangesAreRefused_setbit :
    Ready (present 0x00000004#32 (.wordBitB 0 0 (2 ^ 64))) ∧
      (present 0x00000004#32 (.wordBitB 0 0 (2 ^ 64))).port.ops = .wordBitB 0 0 (2 ^ 64) ∧ 2 ^ 64 ≤ 2 ^ 64 := by decide
theorem witness_RowOffsetsCoverTheTileOnce :
    legalPair .interwined 7 = true ∧ legalPair .gba 8 = true ∧ 5 < 2 * (7 / 2) ∧ 2 * (7 / 2) ≤ 6 := by decide
theorem witness_PixdecReadsPlanarPlanes :
    Ready (present 0x00000810#32 (.tileYX tileW11 7 7)) ∧
      (present 0x00000810#32 (.tileYX tileW11 7 7)).port.ops = .tileYX tileW11 7 7 ∧ tileW11.length = 2 * 8 := by decide
theorem witness_PixdecReadsInterwinedPairs :
    Ready (present 0x00000510#32 (.tileYX (List.replicate 8 1) 7 7)) ∧
      (present 0x00000510#32 (.tileYX (List.replicate 8 1) 7 7)).port.ops = .tileYX (List.replicate 8 1) 7 7 ∧
      (List.replicate 8 (1 : Byte)).length = 1 * 8 ∧ 1 % 2 = 1 := by decide
theorem witness_PixdecReadsInterwinedPairs_pair :
    Ready (present 0x00000910#32 (.tileYX tileW11 0 0)) ∧
      (present 0x00000910#32 (.tileYX tileW11 0 0)).port.ops = .tileYX tileW11 0 0 ∧ tileW11.length = 2 * 8 ∧ 0 < 2 / 2 := by
  decide
theorem witness_PixdecReadsGbaPixels_8bpp :
    Ready (present 0x00002210#32 (.tileYX (List.replicate 64 1) 7 7)) ∧
      (present 0x00002210#32 (.tileYX (List.replicate 64 1) 7 7)).port.ops = .tileYX (List.replicate 64 1) 7 7 ∧
      (List.replicate 64 (1 : Byte)).length = 64 := by decide
theorem witness_PixdecReadsGbaPixels_4bpp :
    Ready (present 0x00001210#32 (.tileYX (List.replicate 32 1) 7 7)) ∧
      (present 0x00001210#32 (.tileYX (List.replicate 32 1) 7 7)).port.ops = .tileYX (List.replicate 32 1) 7 7 ∧
      (List.replicate 32 (1 : Byte)).length = 32 := by decide
theorem witness_PixencChangesOnePixel :
    Ready (present 0x00000811#32 (.tileYXV tileW11 7 7 9)) ∧
      (present 0x00000811#32 (.tileYXV tileW11 7 7 9)).port.ops = .tileYXV tileW11 7 7 9 ∧ legalPair .planar 2 = true ∧
      tileW11.length = 2 * 8 := by decide
theorem witness_RowdecEmitsEightIndices :
    Ready (present 0x00000812#32 (.tileY tileW11 7)) ∧ (present 0x00000812#32 (.tileY tileW11 7)).port.ops = .tileY tileW11 7 ∧
      legalPair .planar 2 = true ∧ tileW11.length = 2 * 8 := by decide
theorem witness_RowencBuildsPlaneBytes :
    Ready (present 0x00002113#32 (.row [0, 1, 2, 3, 4, 5, 6, 256])) ∧
      (present 0x00002113#32 (.row [0, 1, 2, 3, 4, 5, 6, 256])).port.ops = .row [0, 1, 2, 3, 4, 5, 6, 256] ∧
      Format.interwined ≠ .gba ∧ legalPair .interwined 8 = true ∧ [0, 1, 2, 3, 4, 5, 6, 256].length = 8 := by decide
theorem witness_RowencPacksGbaRows :
    Ready (present 0x00002213#32 (.row [0, 1, 2, 3, 4, 5, 6, 256])) ∧
      (present 0x00002213#32 (.row [0, 1, 2, 3, 4, 5, 6, 256])).port.ops = .row [0, 1, 2, 3, 4, 5, 6, 256] := by decide
theorem witness_TiledecEmitsRowMajorIndices :
    Ready (present 0x00000814#32 (.tile tileW11)) ∧ (present 0x00000814#32 (.tile tileW11)).port.ops = .tile tileW11 ∧
      legalPair .planar 2 = true ∧ tileW11.length = 2 * 8 := by decide
theorem witness_TileencPlacesEveryRow :
    Ready (present 0x00001215#32 (.tpix (List.replicate 64 17))) ∧
      (present 0x00001215#32 (.tpix (List.replicate 64 17))).port.ops = .tpix (List.replicate 64 17) ∧
      legalPair .gba 4 = true ∧ (List.replicate 64 17).length = 64 := by decide
theorem witness_TileCodecRoundTrips :
    legalPair .gba 4 = true ∧ (List.replicate 32 (0xAB : Byte)).length = 4 * 8 ∧ (List.replicate 64 17).length = 64 := by decide
theorem witness_RowAndPixelLaws :
    legalPair .planar 1 = true ∧ (List.replicate 8 (0xFF : Byte)).length = 1 * 8 ∧ 7 < 8 ∧ (List.replicate 8 3).length = 8 ∧
      ∀ j, j < 1 → (List.replicate 8 (0xFF : Byte)).getD (rowOff .planar 1 7 j) 0 =
        (encRow .planar 1 (List.replicate 8 3)).getD j 0 := by decide
theorem witness_TileShapesAreRefused_pixdec :
    Ready (present 0x00000810#32 (.tileYX tileW11 0 8)) ∧ legalPair .planar 2 = true ∧
      (present 0x00000810#32 (.tileYX tileW11 0 8)).port.ops = .tileYX tileW11 0 8 ∧ 8 ≤ 8 := by decide
theorem witness_TileShapesAreRefused_pixenc :
    Ready (present 0x00000811#32 (.tileYXV tileW11 8 0 1)) ∧ legalPair .planar 2 = true ∧
      (present 0x00000811#32 (.tileYXV tileW11 8 0 1)).port.ops = .tileYXV tileW11 8 0 1 ∧ 8 ≤ 8 := by decide
theorem witness_TileShapesAreRefused_rowdec :
    Ready (present 0x00000412#32 (.tileY tileW11 7)) ∧ legalPair .planar 1 = true ∧
      (present 0x00000412#32 (.tileY tileW11 7)).port.ops = .tileY tileW11 7 ∧ tileW11.length ≠ 1 * 8 := by decide
theorem witness_TileShapesAreRefused_rowenc :
    Ready (present 0x00000413#32 (.row [1])) ∧ (present 0x00000413#32 (.row [1])).port.ops = .row [1] ∧ [1].length ≠ 8 := by
  decide
theorem witness_TileShapesAreRefused_tiledec :
    Ready (present 0x00000414#32 (.tile tileW11)) ∧ (present 0x00000414#32 (.tile tileW11)).port.ops = .tile tileW11 ∧
      tileW11.length ≠ 1 * 8 := by decide
theorem witness_TileShapesAreRefused_tileenc :
    Ready (present 0x00000415#32 (.tpix [1])) ∧ (present 0x00000415#32 (.tpix [1])).port.ops = .tpix [1] ∧
      [1].length ≠ 64 := by decide
theorem witness_SheetdecEmitsPaddedRows :
    Ready (present 0x00000420#32 (.bytesIn (List.replicate 129 1))) ∧
      (present 0x00000420#32 (.bytesIn (List.replicate 129 1))).port.ops = .bytesIn (List.replicate 129 1) ∧
      legalPair .planar 1 = true ∧ withinCap Params.default.maxBytes 129 = true := by decide
theorem witness_SheetencEmitsTilesInOrder :
    Ready (present 0x00000421#32 (.grid (List.replicate 64 1) 8 8)) ∧
      (present 0x00000421#32 (.grid (List.replicate 64 1) 8 8)).port.ops = .grid (List.replicate 64 1) 8 8 ∧
      legalPair .planar 1 = true ∧ withinCap Params.default.maxElems 64 = true ∧ (List.replicate 64 1).length = 8 * 8 := by
  decide
theorem witness_SheetencReportsDimensions_width :
    (present 0x00000421#32 (.grid [] 7 7)).port.ops = .grid [] 7 7 ∧ Ready (present 0x00000421#32 (.grid [] 7 7)) ∧
      7 % 8 ≠ 0 := by decide
theorem witness_SheetencReportsDimensions_height :
    (present 0x00000421#32 (.grid [] 8 7)).port.ops = .grid [] 8 7 ∧ Ready (present 0x00000421#32 (.grid [] 8 7)) ∧
      8 % 8 = 0 ∧ 7 % 8 ≠ 0 := by decide
theorem witness_SheetencReportsDimensions_length :
    (present 0x00000421#32 (.grid [] 8 8)).port.ops = .grid [] 8 8 ∧ Ready (present 0x00000421#32 (.grid [] 8 8)) ∧
      8 % 8 = 0 ∧ ([] : List Nat).length ≠ 8 * 8 := by decide
theorem witness_EmptyInputsCompleteAtOnce_sheetdec :
    Ready (present 0x00000420#32 (.bytesIn [])) ∧ legalPair .planar 1 = true ∧
      (present 0x00000420#32 (.bytesIn [])).port.ops = .bytesIn [] := by decide
theorem witness_EmptyInputsCompleteAtOnce_sheetenc :
    Ready (present 0x00000421#32 (.grid [] 0 8)) ∧ (present 0x00000421#32 (.grid [] 0 8)).port.ops = .grid [] 0 8 ∧
      0 % 8 = 0 ∧ 8 % 8 = 0 := by decide
theorem witness_EmptyInputsCompleteAtOnce_match :
    Ready (present 0x00000030#32 (.pixPal [] 3 pal3)) ∧
      (present 0x00000030#32 (.pixPal [] 3 pal3)).port.ops = .pixPal [] pal3.channels pal3 ∧
      paletteShape Params.default pal3 = true := by decide
theorem witness_EmptyInputsCompleteAtOnce_apply :
    Ready (present 0x00000031#32 (.idxPal [] pal3)) ∧ (present 0x00000031#32 (.idxPal [] pal3)).port.ops = .idxPal [] pal3 ∧
      paletteShape Params.default pal3 = true := by decide
theorem witness_EmptyInputsCompleteAtOnce_cfgcheck :
    Ready (present 0x00001250#32 .empty) ∧ legalPair .gba 4 = true ∧ (present 0x00001250#32 .empty).port.ops = .empty := by
  decide
theorem witness_SheetEncodeOfDecode : legalPair .planar 1 = true ∧ (List.replicate 256 (1 : Byte)).length % (1 * 128) = 0 := by
  rw [List.length_replicate]
  decide
theorem witness_SheetDecodeOfEncode :
    legalPair .planar 1 = true ∧ 8 % 8 = 0 ∧ (List.replicate 1024 1).length = 128 * 8 ∧ ∀ p ∈ List.replicate 1024 1, p < 2 ^ 1 :=
  ⟨by decide, by decide, List.length_replicate, fun p hp => by
    rw [List.eq_of_mem_replicate hp]
    decide⟩
theorem witness_MatchEmitsLeastIndices :
    Ready (present 0x00000030#32 (.pixPal [[255, 0, 0]] 3 pal3)) ∧
      (present 0x00000030#32 (.pixPal [[255, 0, 0]] 3 pal3)).port.ops = .pixPal [[255, 0, 0]] pal3.channels pal3 ∧
      matchShape Params.default [[255, 0, 0]] pal3.channels pal3 = true ∧ ∀ c ∈ [[255, 0, 0]], c ∈ pal3.entries := by decide
theorem witness_MatchReportsTheFirstMismatch_channels :
    Ready (present 0x00000030#32 (.pixPal [] 4 pal3)) ∧
      (present 0x00000030#32 (.pixPal [] 4 pal3)).port.ops = .pixPal [] 4 pal3 ∧
      matchShape Params.default [] 4 pal3 = true ∧ 4 ≠ pal3.channels := by decide
theorem witness_MatchReportsTheFirstMismatch_colour :
    Ready (present 0x00000030#32 (.pixPal [[0, 0, 0], [1, 2, 3]] 3 pal3)) ∧
      (present 0x00000030#32 (.pixPal [[0, 0, 0], [1, 2, 3]] 3 pal3)).port.ops = .pixPal [[0, 0, 0], [1, 2, 3]] 3 pal3 ∧
      matchShape Params.default [[0, 0, 0], [1, 2, 3]] 3 pal3 = true ∧ 3 = pal3.channels ∧
      ([[0, 0, 0], [1, 2, 3]] : List Colour)[1]? = some [1, 2, 3] ∧ ([1, 2, 3] : Colour) ∉ pal3.entries ∧
      ∀ c ∈ ([[0, 0, 0], [1, 2, 3]] : List Colour).take 1, c ∈ pal3.entries := by decide
theorem witness_ApplyLooksUpEveryIndex :
    Ready (present 0x00000031#32 (.idxPal [3] pal3)) ∧ (present 0x00000031#32 (.idxPal [3] pal3)).port.ops = .idxPal [3] pal3 ∧
      applyShape Params.default [3] pal3 = true ∧ ∀ i ∈ [3], i < pal3.entries.length := by decide
theorem witness_ApplyReportsTheFirstIndexOutOfRange :
    Ready (present 0x00000031#32 (.idxPal [3, 4] pal3)) ∧
      (present 0x00000031#32 (.idxPal [3, 4] pal3)).port.ops = .idxPal [3, 4] pal3 ∧
      applyShape Params.default [3, 4] pal3 = true ∧ [3, 4][1]? = some 4 ∧ pal3.entries.length ≤ 4 ∧
      ∀ i ∈ [3, 4].take 1, i < pal3.entries.length := by decide
theorem witness_PaletteShapesAreRefused_match :
    Ready (present 0x00000030#32 (.pixPal [[1]] 3 pal3)) ∧
      (present 0x00000030#32 (.pixPal [[1]] 3 pal3)).port.ops = .pixPal [[1]] 3 pal3 ∧
      ∃ c ∈ ([[1]] : List Colour), c.length ≠ 3 := by decide
theorem witness_PaletteShapesAreRefused_apply :
    Ready (present 0x00000031#32 (.idxPal [0] ⟨2, []⟩)) ∧
      (present 0x00000031#32 (.idxPal [0] ⟨2, []⟩)).port.ops = .idxPal [0] ⟨2, []⟩ ∧ (2 ≠ 1 ∧ 2 ≠ 3 ∧ 2 ≠ 4) := by decide
theorem witness_GraypalEmitsNearestGrays :
    Ready (present 0x00006032#32 .empty) ∧ (present 0x00006032#32 .empty).port.ops = .empty ∧ ChCode.three ≠ .reserved := by
  decide
theorem witness_GraypalReportsConfiguration :
    Ready (present 0x0000C032#32 .empty) ∧ ((0 : Nat) < 1 ∨ 8 < 0) ∧ ((9 : Nat) < 1 ∨ 8 < 9) ∧ (1 : Nat) ≤ 1 ∧ (8 : Nat) ≤ 8 := by
  decide
theorem witness_GrayLevelsAscendFromBlackToWhite : (1 : Nat) ≤ 8 ∧ 8 ≤ 8 ∧ 254 < 255 ∧ 255 < 2 ^ 8 := by decide
theorem witness_ImgheightEmitsTheSheetHeight :
    Ready (present 0x00000440#32 (.numBytes 0)) ∧ (present 0x00000440#32 (.numBytes 0)).port.ops = .numBytes 0 ∧
      withinCap Params.default.maxBytes 0 = true ∧ ((0 : Nat) < 1 ∨ 8 < 0) ∧ ((9 : Nat) < 1 ∨ 8 < 9) := by decide
theorem witness_ImgheightLaws : (1 : Nat) ≤ 8 ∧ 0 < 1 ∧ 0 ≤ 1 := by decide
theorem witness_FmtlookupFindsTheCode :
    Ready (present 0x00000051#32 (.name "gba")) ∧ (present 0x00000051#32 (.name "gba")).port.ops = .name "gba" ∧
      "gba" = Params.default.nameGba ∧ Params.default.nameGba ≠ Params.default.namePlanar ∧
      Params.default.nameGba ≠ Params.default.nameInterwined ∧
      Params.default.nameInterwined ≠ Params.default.namePlanar := by decide
theorem witness_FmtlookupFindsTheCode_unknown :
    (present 0x00000051#32 (.name "")).port.ops = .name "" ∧ "" ≠ Params.default.namePlanar ∧
      "" ≠ Params.default.nameInterwined ∧ "" ≠ Params.default.nameGba := by decide
theorem witness_FmtlookupFindsTheCode_surplus :
    run1 0x00000051#32 (.nameSurplus "interleaved") = ends 1 4 0 0 ∧
      run1 0x00000051#32 (.nameSurplus "gba") = refuses := by decide -- R227: the name, then the shape
theorem witness_FmtnameAndBpplistDescribeTheFormat :
    Ready (present 0x00000052#32 .empty) ∧ (present 0x00000052#32 .empty).port.ops = .empty := by decide
theorem witness_DefaultDecodePathAlwaysSucceeds :
    legalPair .gba 4 = true ∧ ChCode.four ≠ .reserved ∧ Params.default.maxBytes = none ∧
      Params.default.maxElems = none ∧ Params.default.palCap = none := by decide

end Sys2Proof.Tests
end

/-! The block after reset, the engine's step, the frame of a command, and the invariant of the block: what R22 to R35 say of
the state as a whole. -/

namespace Sys2Proof.Machine

/-! ### The errors a command can report (R221 to R226) -/

/-- Every error the result reports is one of the given (CODE, SUB) pairs. -/
def ErrorsAmong (pairs : List (BitVec 4 × BitVec 4)) (r : ExecResult) : Prop :=
  ∀ e, r = .err e → (e.code, e.sub) ∈ pairs

section ErrorsAmong

variable {pairs : List (BitVec 4 × BitVec 4)}

@[simp] theorem errorsAmong_refuse : ErrorsAmong pairs .refuse := by simp [ErrorsAmong]

@[simp] theorem errorsAmong_ok (es : List Element) : ErrorsAmong pairs (.ok es) := by simp [ErrorsAmong]

@[simp] theorem errorsAmong_err (e : CmdError) : ErrorsAmong pairs (.err e) ↔ (e.code, e.sub) ∈ pairs := by
  simp [ErrorsAmong]

/-- A shape check adds a refusal and no error (R90). -/
theorem ErrorsAmong.ifShaped {k : ExecResult} (h : ErrorsAmong pairs k) (shape : Bool) :
    ErrorsAmong pairs (ifShaped shape k) := by
  cases shape
  · exact errorsAmong_refuse
  · exact h

/-- The configuration check adds the three errors of R222. -/
theorem errorsAmong_withConfig {fmt : FmtCode} {bpp : Nat} {k : Format → ExecResult}
    (hcfg : [(1, 0), (1, 1), (1, 2)] ⊆ pairs) (hk : ∀ f, ErrorsAmong pairs (k f)) :
    ErrorsAmong pairs (withConfig fmt bpp k) := by
  obtain ⟨f, -, -, hrun⟩ | ⟨e, herr, hrun⟩ := withConfig_cases fmt bpp k
  · exact hrun ▸ hk f
  · rw [hrun, errorsAmong_err]
    apply hcfg
    obtain rfl | rfl | rfl := checkCfg_error herr <;> decide

/-- The range check of BPP adds one error (R188, R200). -/
theorem errorsAmong_withBpp {bpp : Nat} {k : ExecResult} (hbpp : (1, 0) ∈ pairs) (hk : ErrorsAmong pairs k) :
    ErrorsAmong pairs (withBpp bpp k) := by
  unfold withBpp
  split
  · exact hk
  · exact (errorsAmong_err _).2 hbpp

/-- The check of FMT alone adds one error (R211, R212). -/
theorem errorsAmong_withFormat {fmt : FmtCode} {k : Format → ExecResult} (hfmt : (1, 2) ∈ pairs)
    (hk : ∀ f, ErrorsAmong pairs (k f)) : ErrorsAmong pairs (withFormat fmt k) := by
  unfold withFormat
  split
  · exact (errorsAmong_err _).2 hfmt
  · exact hk _

end ErrorsAmong

/-- MATCH's scan fails only with a colour that has no match (R182). -/
theorem matchFrom_error {entries : List Colour} {pos : Nat} {pix : List Colour} {e : CmdError}
    (h : matchFrom entries pos pix = .error e) : ∃ p, e = .noMatch p := by
  induction pix generalizing pos with
  | nil => simp [matchFrom] at h
  | cons c rest ih =>
    simp only [matchFrom] at h
    split at h
    · injection h with h; exact ⟨pos, h.symm⟩
    · split at h
      next herr => injection h with h; exact ih (h ▸ herr)
      next => cases h

/-- APPLY's scan fails only with an index out of range (R186). -/
theorem applyFrom_error {entries : List Colour} {pos : Nat} {idx : List Nat} {e : CmdError}
    (h : applyFrom entries pos idx = .error e) : ∃ p v, e = .indexOutOfRange p v := by
  induction idx generalizing pos with
  | nil => simp [applyFrom] at h
  | cons i rest ih =>
    simp only [applyFrom] at h
    split at h
    · injection h with h; exact ⟨pos, i, h.symm⟩
    · split at h
      next herr => injection h with h; exact ih (h ▸ herr)
      next => cases h

/-- SHEETENC's dimension checks report the three errors of R223. -/
theorem checkDims_some {grid : List Nat} {width height : Nat} {e : CmdError}
    (h : checkDims grid width height = some e) :
    e = .widthNotMultiple ∨ e = .heightNotMultiple ∨ e = .gridLength := by
  unfold checkDims at h
  split_ifs at h <;> injection h with h <;> simp [← h]

theorem matchResult_errors (params : Params) (r : Record) :
    ErrorsAmong (allowedResults .matchPix) (matchResult params r) := by
  unfold matchResult
  split
  · apply ErrorsAmong.ifShaped
    split_ifs
    · exact (errorsAmong_err _).2 (by decide)
    · split
      next e he =>
        obtain ⟨p, rfl⟩ := matchFrom_error he
        simp [allowedResults, CmdError.code, CmdError.sub]
      next => exact errorsAmong_ok _
  · exact errorsAmong_refuse

theorem applyResult_errors (params : Params) (r : Record) :
    ErrorsAmong (allowedResults .applyPal) (applyResult params r) := by
  unfold applyResult
  split
  · apply ErrorsAmong.ifShaped
    split
    next e he =>
      obtain ⟨p, v, rfl⟩ := applyFrom_error he
      simp [allowedResults, CmdError.code, CmdError.sub]
    next => exact errorsAmong_ok _
  · exact errorsAmong_refuse

theorem sheetencResult_errors (params : Params) (fmt : FmtCode) (bpp : Nat) (r : Record) :
    ErrorsAmong (allowedResults (.sheetenc fmt bpp)) (sheetencResult params fmt bpp r) := by
  refine errorsAmong_withConfig (by simp [allowedResults]) fun f => ?_
  split
  · apply ErrorsAmong.ifShaped
    split
    next e he =>
      obtain rfl | rfl | rfl := checkDims_some he <;> simp [allowedResults, CmdError.code, CmdError.sub]
    next => exact errorsAmong_ok _
  · exact errorsAmong_refuse

theorem graypalResult_errors (bpp : Nat) (ch : ChCode) (r : Record) :
    ErrorsAmong (allowedResults (.graypal bpp ch)) (graypalResult bpp ch r) := by
  refine errorsAmong_withBpp (by simp [allowedResults]) ?_
  split
  · simp [allowedResults, CmdError.code, CmdError.sub]
  · split <;> simp

theorem fmtlookupResult_errors (params : Params) (r : Record) :
    ErrorsAmong (allowedResults .fmtlookup) (fmtlookupResult params r) := by
  obtain ⟨-, h⟩ | ⟨name, -, ⟨-, h⟩ | ⟨f, -, h⟩⟩ := fmtlookupResult_cases params r <;> rw [h]
  · exact errorsAmong_refuse
  · exact (errorsAmong_err _).2 (by decide)
  · exact (errorsAmong_ok _).ifShaped _

/-- Every command reports only errors that its row of R226 lists. The commands without a lemma of their own check their
configuration, then their record's shape, and report no error after that. -/
theorem commandResult_errors (i : Instr) (params : Params) (r : Record) :
    ErrorsAmong (allowedResults i) (commandResult i params r) := by
  cases i with
  | matchPix => exact matchResult_errors params r
  | applyPal => exact applyResult_errors params r
  | sheetenc fmt bpp => exact sheetencResult_errors params fmt bpp r
  | graypal bpp ch => exact graypalResult_errors bpp ch r
  | fmtlookup => exact fmtlookupResult_errors params r
  | getbits | setbits | getbit | setbit =>
    simp only [commandResult, getbitsResult, setbitsResult, getbitResult, setbitResult]
    split
    · exact (errorsAmong_ok _).ifShaped _
    · exact errorsAmong_refuse
  | pixdec | pixenc | rowdec | rowenc | tiledec | tileenc | sheetdec =>
    refine errorsAmong_withConfig (by simp [allowedResults]) fun f => ?_
    split
    · exact (errorsAmong_ok _).ifShaped _
    · exact errorsAmong_refuse
  | cfgcheck =>
    refine errorsAmong_withConfig (by simp [allowedResults]) fun f => ?_
    split <;> simp
  | imgheight =>
    refine errorsAmong_withBpp (by simp [allowedResults]) ?_
    split
    · exact (errorsAmong_ok _).ifShaped _
    · exact errorsAmong_refuse
  | fmtname | bpplist =>
    refine errorsAmong_withFormat (by simp [allowedResults]) fun f => ?_
    split <;> simp

/-! ### RESULT (R25, R26, R226) -/

theorem CmdError.code_ne_ok (e : CmdError) : e.code ≠ codeOk := by
  cases e <;> simp [CmdError.code, codeOk]

theorem CmdError.code_ne_none (e : CmdError) : e.code ≠ codeNone := by
  cases e <;> simp [CmdError.code, codeNone]

/-- Only IndexOutOfRangeError, CODE 4, carries a value (R26). -/
theorem CmdError.val_eq_zero {e : CmdError} (h : e.code ≠ 4#4) : e.val = 0 := by
  cases e with
  | indexOutOfRange => exact absurd rfl h
  | _ => rfl

theorem resultCode_failedWith (code sub : BitVec 4) (pos val : Nat) (s : State) :
    resultCode (failedWith code sub pos val s).result = code := resultCode_packResult code sub

theorem resultCode_completedEmpty (s : State) : resultCode (completedEmpty s).result = codeOk := rfl

/-- Every command can end with OK (R226). -/
theorem ok_mem_allowedResults (i : Instr) : (codeOk, 0#4) ∈ allowedResults i := by
  cases i <;> simp [allowedResults, codeOk]

theorem resultFitsCommand_packResult {cmd : CmdWord} {i : Instr} {code sub : BitVec 4} (hdec : decode cmd = .ok i)
    (hmem : (code, sub) ∈ allowedResults i) : resultFitsCommand cmd (packResult code sub) = true := by
  simp only [resultFitsCommand, hdec, List.any_eq_true, beq_iff_eq]
  exact ⟨(code, sub), hmem, rfl⟩

/-- A latched command that decodes can complete OK (R30, R226). -/
theorem resultFitsCommand_ok {cmd : CmdWord} (hdec : (decode cmd).toOption.isSome = true) :
    resultFitsCommand cmd (packResult codeOk 0#4) = true := by
  cases h : decode cmd with
  | error e => simp [h, Except.toOption] at hdec
  | ok i => exact resultFitsCommand_packResult h (ok_mem_allowedResults i)

/-! ### The invariant of the block -/

/-- In IDLE only the invariant's part about IDLE says something. -/
theorem blockInv_of_idle {s : State} (hp : s.phase = .idle) (ht : s.taken ≤ s.out.length) (h : IdleInv s) :
    BlockInv s := by
  simp only [BlockInv, hp, reduceCtorEq, false_implies, true_implies, and_true]
  exact ⟨ht, h⟩

theorem blockInv_of_running {s : State} (hp : s.phase = .running) (ht : s.taken ≤ s.out.length) (h : RunningInv s) :
    BlockInv s := by
  simp only [BlockInv, hp, reduceCtorEq, false_implies, true_implies, and_true, true_and]
  exact ⟨ht, h⟩

theorem blockInv_of_done {s : State} (hp : s.phase = .done) (ht : s.taken ≤ s.out.length) (h : DoneInv s) :
    BlockInv s := by
  simp only [BlockInv, hp, reduceCtorEq, false_implies, true_implies, true_and]
  exact ⟨ht, h⟩

/-- The invariant does not speak of the host's script, the presented transaction or the refusal mark, and of what the
host has read only its count. -/
theorem BlockInv.dropMove {s : State} (h : BlockInv s) (rest : List HostMove) : BlockInv (dropMove rest s) := h

theorem BlockInv.presentRequest {s : State} (h : BlockInv s) (r : Request) : BlockInv (presentRequest r s) := h

theorem BlockInv.refusedState {s : State} (h : BlockInv s) : BlockInv (refusedState s) := h

theorem BlockInv.readStatus {s : State} (h : BlockInv s) : BlockInv (readStatus s) := h

/-- Reset leads to IDLE with everything at the values of R35. -/
theorem blockInv_resetBlock (s : State) : BlockInv (resetBlock s) :=
  blockInv_of_idle rfl (Nat.zero_le _) ⟨rfl, rfl, rfl, rfl, rfl, rfl, rfl, rfl⟩

/-- The host reads an element only where one has appeared (R257). -/
theorem BlockInv.takeElement {s : State} (h : BlockInv s) : BlockInv (takeElement s) := by
  obtain ⟨e, he, heq⟩ | ⟨-, heq⟩ := takeElement_cases s <;> rw [heq]
  · obtain ⟨hlt, -⟩ := List.getElem?_eq_some_iff.1 he
    obtain ⟨-, hphases⟩ := h
    exact ⟨hlt, hphases⟩
  · exact h

/-- Emitting the last element makes CUR reach TOTAL, so the command completes OK with its whole output (R30, R31). -/
theorem BlockInv.emitLast {s : State} {e : Element} (h : BlockInv s) (hp : s.phase = .running) (hl : s.pending = [e]) :
    BlockInv (completeCommand codeOk 0#4 0 0 (emitElement e [] s)) := by
  obtain ⟨htaken, -, hrun, -⟩ := h
  obtain ⟨hops, hdec, -, -, -, -, hcur, htotal⟩ := hrun hp
  have hdone : s.cur + 1 = s.total := by simpa [hl] using htotal
  refine blockInv_of_done rfl (htaken.trans (by simp))
    ⟨hops, resultFitsCommand_ok hdec, rfl, by simp [hcur], fun _ => ⟨hdone, rfl⟩, fun hne => ?_, fun _ => rfl⟩
  exact absurd (resultCode_packResult codeOk 0#4) hne

/-- Emitting an element with more to come moves one element from PENDING to OUT (R31, R32). -/
theorem BlockInv.emitElement {s : State} {e e' : Element} {rest : List Element} (h : BlockInv s)
    (hp : s.phase = .running) (hl : s.pending = e :: e' :: rest) : BlockInv (emitElement e (e' :: rest) s) := by
  obtain ⟨htaken, -, hrun, -⟩ := h
  obtain ⟨hops, hdec, hres, hpos, hval, -, hcur, htotal⟩ := hrun hp
  rw [hl] at htotal
  refine blockInv_of_running hp (htaken.trans (by simp)) ⟨hops, hdec, hres, hpos, hval, by simp, by simp [hcur], ?_⟩
  simp only [List.length_cons, emitElement_cur, emitElement_pending, emitElement_total] at htotal ⊢
  omega

theorem BlockInv.engineStep {s : State} (h : BlockInv s) : BlockInv (engineStep s) := by
  obtain ⟨hp, e, hl, heq⟩ | ⟨hp, e, e', rest, hl, heq⟩ | ⟨-, heq⟩ := engineStep_cases s <;> rw [heq]
  · exact h.emitLast hp hl
  · exact h.emitElement hp hl
  · exact h

/-- A command that starts has its whole output still to emit (R29). -/
theorem blockInv_startedWith {s : State} {i : Instr} {es : List Element} (hdec : decode s.port.word = .ok i)
    (hes : es ≠ []) : BlockInv (startedWith es s) :=
  blockInv_of_running rfl (Nat.zero_le _)
    ⟨rfl, by simp [hdec, Except.toOption], rfl, rfl, rfl, hes, rfl, Nat.zero_add _⟩

/-- A command with nothing to emit is done with OK and its empty output complete (R29). -/
theorem blockInv_completedEmpty {s : State} {i : Instr} (hdec : decode s.port.word = .ok i) :
    BlockInv (completedEmpty s) :=
  blockInv_of_done rfl (Nat.zero_le _)
    ⟨rfl, resultFitsCommand_packResult hdec (ok_mem_allowedResults i), rfl, rfl, fun _ => ⟨rfl, rfl⟩, fun _ => rfl,
      fun _ => rfl⟩

/-- A command that fails is done with an error of its row of R226 and no output (R228, R229). -/
theorem blockInv_failedWith {s : State} {i : Instr} {e : CmdError} (hdec : decode s.port.word = .ok i)
    (hmem : (e.code, e.sub) ∈ allowedResults i) : BlockInv (failedWith e.code e.sub e.pos e.val s) := by
  have hcode := resultCode_failedWith e.code e.sub e.pos e.val s
  refine blockInv_of_done rfl (Nat.zero_le _)
    ⟨rfl, resultFitsCommand_packResult hdec hmem, rfl, rfl, fun hok => ?_, fun _ => rfl, fun hne => ?_⟩
  · exact absurd (hcode.symm.trans hok) e.code_ne_ok
  · exact CmdError.val_eq_zero (hcode ▸ hne)

/-- Acceptance of the presented command keeps the invariant, whatever its outcome (R29, R226). -/
theorem BlockInv.acceptOutcome {s : State} {i : Instr} (h : BlockInv s) (hdec : decode s.port.word = .ok i) :
    BlockInv (acceptOutcome (commandResult i s.params s.port.ops) s) := by
  obtain ⟨-, heq⟩ | ⟨e, he, heq⟩ | ⟨-, heq⟩ | ⟨es, hes, -, heq⟩ :=
    acceptOutcome_cases (commandResult i s.params s.port.ops) s <;> rw [heq]
  · exact h.refusedState
  · exact blockInv_failedWith hdec (commandResult_errors i _ _ e he)
  · exact blockInv_completedEmpty hdec
  · exact blockInv_startedWith hdec hes

/-- All that a command's meaning can answer as a next state: the outcome of its acceptance. -/
theorem exec_next_iff (i : Instr) (s t : State) :
    exec i s = .next t ↔ Ready s ∧ acceptOutcome (commandResult i s.params s.port.ops) s = t := by
  rw [exec_eq_accept, accept_next_iff]

theorem refuseWord_next_iff (s t : State) : refuseWord s = .next t ↔ Ready s ∧ refusedState s = t := by
  by_cases h : s.phase = .running
  · simp [refuseWord_of_running h, h]
  · simp [refuseWord_of_ready h, h]

theorem BlockInv.runPresented {s t : State} (h : BlockInv s) (hrun : runPresented s = .next t) : BlockInv t := by
  cases hdec : decode s.port.word with
  | ok i =>
    obtain ⟨-, rfl⟩ := (exec_next_iff i s t).1 (runPresented_of_ok hdec ▸ hrun)
    exact h.acceptOutcome hdec
  | error e =>
    obtain ⟨-, rfl⟩ := (refuseWord_next_iff s t).1 (runPresented_of_error hdec ▸ hrun)
    exact h.refusedState

/-- Settles O14, by the cases of a step: each named operation on the state keeps the invariant. -/
theorem everyStepKeepsTheBlockInvariant : Obligations.EveryStepKeepsTheBlockInvariant := by
  intro s t h hstep
  obtain ⟨-, rfl⟩ | ⟨m, rest, -, hmove⟩ := step_next_cases hstep
  · exact h.engineStep
  · have hdrop := h.dropMove rest
    obtain ⟨-, rfl⟩ | ⟨r, -, hrun⟩ | ⟨-, rfl⟩ | ⟨-, rfl⟩ | ⟨-, rfl⟩ | ⟨-, -, rfl⟩ := hmove
    · exact hdrop.engineStep
    · exact (hdrop.presentRequest r).runPresented hrun
    · exact blockInv_resetBlock _
    · exact hdrop.takeElement
    · exact hdrop.readStatus
    · exact hdrop

/-- Settles O15: the state after reset is an IDLE state with the values of R35. -/
theorem resetMeetsTheBlockInvariant : Obligations.ResetMeetsTheBlockInvariant :=
  blockInv_of_idle rfl (Nat.zero_le _) ⟨rfl, rfl, rfl, rfl, rfl, rfl, rfl, rfl⟩

/-! ### The engine's step (R31) -/

/-- While RUNNING the head of PENDING goes to OUT, and the command completes OK when it was the last. -/
theorem engineStep_of_pending {s : State} {e : Element} {rest : List Element} (hp : s.phase = .running)
    (hl : s.pending = e :: rest) :
    engineStep s =
      if rest = [] then completeCommand codeOk 0#4 0 0 (emitElement e rest s) else emitElement e rest s := by
  cases rest <;> simp [engineStep, hp, hl]

theorem engineStep_of_not_running {s : State} (hp : s.phase ≠ .running) : engineStep s = s := by
  cases h : s.phase <;> simp_all [engineStep]

theorem step_of_pass {s : State} {rest : List HostMove} (h : s.script = .pass :: rest) :
    step s = .next (engineStep (dropMove rest s)) :=
  step_of_cons h

/-- Settles O10: with no move left or a pass, a step is the engine's step. -/
theorem engineStepEmitsOneElement : Obligations.EngineStepEmitsOneElement := by
  intro s
  refine ⟨fun e rest hp hl => ⟨fun hs => ?_, fun ms hs => ?_⟩, fun hp => ⟨fun hs => ?_, fun ms hs => ?_⟩⟩
  · rw [step_of_nil hs, engineStep_of_pending hp hl]
    cases rest <;> rfl
  · rw [step_of_pass hs, engineStep_of_pending (s := dropMove ms s) hp hl]
    cases rest <;> rfl
  · rw [step_of_nil hs, engineStep_of_not_running hp]
  · rw [step_of_pass hs, engineStep_of_not_running (s := dropMove ms s) hp]
    rfl

/-! ### The frame of a command, reset, and the step on a command -/

/-- Settles O18, by the four outcomes of acceptance. -/
theorem commandFrame : Obligations.CommandFrame := by
  intro i s t h
  obtain ⟨-, rfl⟩ := (exec_next_iff i s t).1 h
  obtain ⟨-, heq⟩ | ⟨e, -, heq⟩ | ⟨-, heq⟩ | ⟨es, hes, -, heq⟩ :=
    acceptOutcome_cases (commandResult i s.params s.port.ops) s <;> rw [heq]
  · exact .inl rfl
  · have hcode := resultCode_failedWith e.code e.sub e.pos e.val s
    refine .inr ⟨rfl, rfl, rfl, rfl, rfl, rfl, rfl, rfl, rfl, rfl, .inr ⟨rfl, rfl, ?_, fun hok => ?_, fun _ => rfl⟩⟩
    · exact hcode.trans_ne e.code_ne_none
    · exact absurd (hcode.symm.trans hok) e.code_ne_ok
  · refine .inr ⟨rfl, rfl, rfl, rfl, rfl, rfl, rfl, rfl, rfl, rfl,
      .inr ⟨rfl, rfl, ?_, fun _ => ⟨rfl, rfl, rfl⟩, fun hne => ?_⟩⟩
    · exact (resultCode_completedEmpty s).trans_ne (by decide)
    · exact absurd (resultCode_completedEmpty s) hne
  · exact .inr ⟨rfl, rfl, rfl, rfl, rfl, rfl, rfl, rfl, rfl, rfl, .inl ⟨rfl, hes, rfl, rfl, rfl, rfl⟩⟩

/-- Settles O5: every field but CMD is read off the state after reset. -/
theorem resetLeavesTheBlockIdle : Obligations.ResetLeavesTheBlockIdle := by
  unfold Obligations.ResetLeavesTheBlockIdle
  decide

/-- Settles O7: the step presents the transaction and the decoder finds the command. -/
theorem stepRunsTheDecodedCommand : Obligations.StepRunsTheDecodedCommand := by
  intro s r rest i hs hdec
  rw [step_of_cons hs]
  exact runPresented_of_ok (s := presentRequest r (dropMove rest s)) hdec

end Sys2Proof.Machine

/-! What a step leaves of OUT, and what a command's outcome depends on (R62). -/

namespace Sys2Proof.Machine

/-! ### OUT between acceptance and reset (R28, R31) -/

/-- The engine's step leaves OUT as it is or adds one element at its end. -/
theorem engineStep_out (s : State) : (engineStep s).out = s.out ∨ ∃ e, (engineStep s).out = s.out ++ [e] := by
  obtain ⟨-, e, -, heq⟩ | ⟨-, e, e', rest, -, heq⟩ | ⟨-, heq⟩ := engineStep_cases s <;> rw [heq]
  · exact .inr ⟨e, rfl⟩
  · exact .inr ⟨e, rfl⟩
  · exact .inl rfl

/-- The host's read of an element takes nothing off OUT (R257). -/
@[simp] theorem takeElement_out (s : State) : (takeElement s).out = s.out := by
  obtain ⟨e, -, heq⟩ | ⟨-, heq⟩ := takeElement_cases s <;> rw [heq]

/-- Settles O17, by the cases of a step: of the moves that neither issue nor reset, only the engine's step writes OUT. -/
theorem emittedElementsNeverChange : Obligations.EmittedElementsNeverChange := by
  intro s t hstep
  obtain ⟨-, rfl⟩ | ⟨m, rest, hscript, hmove⟩ := step_next_cases hstep
  · exact .inr (.inr (engineStep_out s))
  · obtain ⟨-, rfl⟩ | ⟨r, rfl, -⟩ | ⟨rfl, -⟩ | ⟨-, rfl⟩ | ⟨-, rfl⟩ | ⟨-, -, rfl⟩ := hmove
    · exact .inr (.inr (engineStep_out (dropMove rest s)))
    · exact .inl ⟨r, rest, hscript⟩
    · exact .inr (.inl ⟨rest, hscript⟩)
    · exact .inr (.inr (.inl (takeElement_out (dropMove rest s))))
    · exact .inr (.inr (.inl rfl))
    · exact .inr (.inr (.inl rfl))

/-! ### What an outcome depends on (R29, R62) -/

/-- In IDLE or DONE every command is accepted with its pure result, a function of the parameters and the record. -/
theorem exec_of_ready (i : Instr) {s : State} (h : Ready s) :
    exec i s = .next (acceptOutcome (commandResult i s.params s.port.ops) s) :=
  (exec_next_iff i s _).2 ⟨h, rfl⟩

/-- Settles O20: the two states give the command the same pure result, and each of the four outcomes of acceptance writes
every field spoken of from that result and the presented transaction. -/
theorem outcomeDependsOnlyOnTheTransaction : Obligations.OutcomeDependsOnlyOnTheTransaction := by
  intro i s s' hs hs' hport hparams
  have hexec := exec_of_ready i hs
  have hexec' := exec_of_ready i hs'
  rw [hport, hparams] at hexec
  generalize commandResult i s'.params s'.port.ops = r at hexec hexec'
  obtain ⟨rfl, -⟩ | ⟨e, rfl, -⟩ | ⟨rfl, -⟩ | ⟨es, hes, rfl, -⟩ := acceptOutcome_cases r s
  · exact .inl ⟨hexec, hexec'⟩
  · exact .inr ⟨_, _, hexec, hexec', by simp [acceptOutcome_err, hport]⟩
  · exact .inr ⟨_, _, hexec, hexec', by simp [acceptOutcome_ok_nil, hport]⟩
  · exact .inr ⟨_, _, hexec, hexec', by simp [acceptOutcome_ok hes, hport]⟩

end Sys2Proof.Machine

/-! The command word: the encoder and the decoder are inverse to each other, and the decoder follows the opcode map
(R81, R87, R88, R91). -/

namespace Sys2Proof

/-! ### The fields of a command word (R81) -/

/-- The six fields are all of a command word: two words with the same fields are equal. -/
theorem cmdWord_eq_iff_fields (v w : CmdWord) :
    v = w ↔ opcField v = opcField w ∧ fmtField v = fmtField w ∧ bppField v = bppField w ∧ chField v = chField w ∧
      wwField v = wwField w ∧ rsvField v = rsvField w := by
  refine ⟨by rintro rfl; simp, fun ⟨hopc, hfmt, hbpp, hch, hww, hrsv⟩ => BitVec.eq_of_toNat_eq ?_⟩
  simp only [opcField, fmtField, bppField, chField, wwField, rsvField, ← BitVec.toNat_inj,
    BitVec.extractLsb'_toNat, Nat.shiftRight_eq_div_pow] at hopc hfmt hbpp hch hww hrsv
  omega

/-- A word with RSV = 0 is assembled from its other fields (R91). -/
theorem wordOf_fields {w : CmdWord} (hrsv : rsvField w = 0#14) :
    wordOf (opcField w) (fmtField w) (bppField w) (chField w) (wwField w) = w := by
  rw [cmdWord_eq_iff_fields]
  exact ⟨opcField_wordOf .., fmtField_wordOf .., bppField_wordOf .., chField_wordOf .., wwField_wordOf ..,
    (rsvField_wordOf ..).trans hrsv.symm⟩

/-! A field of a masked word is the field masked. -/

section masked

variable (v w : CmdWord)

theorem opcField_and : opcField (v &&& w) = opcField v &&& opcField w := BitVec.extractLsb'_and

theorem fmtField_and : fmtField (v &&& w) = fmtField v &&& fmtField w := BitVec.extractLsb'_and

theorem bppField_and : bppField (v &&& w) = bppField v &&& bppField w := BitVec.extractLsb'_and

theorem chField_and : chField (v &&& w) = chField v &&& chField w := BitVec.extractLsb'_and

theorem wwField_and : wwField (v &&& w) = wwField v &&& wwField w := BitVec.extractLsb'_and

theorem rsvField_and : rsvField (v &&& w) = rsvField v &&& rsvField w := BitVec.extractLsb'_and

end masked

/-! A field's value and its bits determine each other (R83, R85, R86). -/

@[simp] theorem FmtCode.ofField_toField (f : FmtCode) : FmtCode.ofField f.toField = f := by
  cases f <;> rfl

@[simp] theorem FmtCode.toField_ofField (b : BitVec 2) : (FmtCode.ofField b).toField = b := by
  revert b; decide

@[simp] theorem ChCode.ofField_toField (c : ChCode) : ChCode.ofField c.toField = c := by
  cases c <;> rfl

@[simp] theorem ChCode.toField_ofField (b : BitVec 2) : (ChCode.ofField b).toField = b := by
  revert b; decide

@[simp] theorem WidthCode.ofField_toField (ww : WidthCode) : WidthCode.ofField ww.toField = ww := by
  cases ww <;> rfl

@[simp] theorem WidthCode.toField_ofField (b : BitVec 2) : (WidthCode.ofField b).toField = b := by
  revert b; decide

/-! ### The opcode map (R87, R88) -/

theorem Mnemonic.ofOpc_opc (m : Mnemonic) : Mnemonic.ofOpc m.opc = some m := by
  cases m <;> rfl

/-- An OPC value names the one operation that has it. -/
theorem Mnemonic.ofOpc_eq_some_iff (b : BitVec 8) (m : Mnemonic) : Mnemonic.ofOpc b = some m ↔ b = m.opc := by
  refine ⟨fun h => ?_, by rintro rfl; exact m.ofOpc_opc⟩
  have hopc := List.find?_some h
  exact (beq_iff_eq.1 hopc).symm

/-- Every field the operation does not use is 0. -/
theorem unusedFieldsZero_iff (m : Mnemonic) (w : CmdWord) :
    unusedFieldsZero m w = true ↔
      (m.usesFmt = true ∨ fmtField w = 0#2) ∧ (m.usesBpp = true ∨ bppField w = 0#4) ∧
        (m.usesCh = true ∨ chField w = 0#2) ∧ (m.usesWw = true ∨ wwField w = 0#2) := by
  simp [unusedFieldsZero, and_assoc]

/-- All that the decoder accepts (R88): the word names an operation, and RSV and the fields it does not use are 0. -/
theorem decode_eq_ok_iff (w : CmdWord) (i : Instr) :
    decode w = .ok i ↔
      ∃ m : Mnemonic, opcField w = m.opc ∧ rsvField w = 0#14 ∧ unusedFieldsZero m w = true ∧ m.build w = i := by
  simp only [← Mnemonic.ofOpc_eq_some_iff, decode]
  cases Mnemonic.ofOpc (opcField w) with
  | none => simp
  | some m => simp only [Option.some.injEq, exists_eq_left']; split_ifs <;> simp_all

theorem Mnemonic.mnemonic_build (m : Mnemonic) (w : CmdWord) : (m.build w).mnemonic = m := by
  cases m <;> rfl

/-- BPP is read from 4 bits, so it fits them. -/
theorem Mnemonic.wf_build (m : Mnemonic) (w : CmdWord) : (m.build w).wf = true := by
  have hbpp : bppFits (bppField w).toNat = true := decide_eq_true (bppField w).isLt
  cases m with
  | getbits | setbits | getbit | setbit | matchPix | applyPal | fmtlookup | fmtname | bpplist => rfl
  | pixdec | pixenc | rowdec | rowenc | tiledec | tileenc | sheetdec | sheetenc => exact hbpp
  | graypal | imgheight | cfgcheck => exact hbpp

/-! ### Decoding a command's word -/

/-- The word of every command has the form that the decoder accepts. -/
theorem commandWord_form (i : Instr) : Laws.CommandWord.Statement i := by
  cases i with
  | getbits ww => exact Laws.CommandWord.getbits ww
  | setbits ww => exact Laws.CommandWord.setbits ww
  | getbit ww => exact Laws.CommandWord.getbit ww
  | setbit ww => exact Laws.CommandWord.setbit ww
  | pixdec fmt bpp => exact Laws.CommandWord.pixdec fmt bpp
  | pixenc fmt bpp => exact Laws.CommandWord.pixenc fmt bpp
  | rowdec fmt bpp => exact Laws.CommandWord.rowdec fmt bpp
  | rowenc fmt bpp => exact Laws.CommandWord.rowenc fmt bpp
  | tiledec fmt bpp => exact Laws.CommandWord.tiledec fmt bpp
  | tileenc fmt bpp => exact Laws.CommandWord.tileenc fmt bpp
  | sheetdec fmt bpp => exact Laws.CommandWord.sheetdec fmt bpp
  | sheetenc fmt bpp => exact Laws.CommandWord.sheetenc fmt bpp
  | matchPix => exact Laws.CommandWord.matchPix
  | applyPal => exact Laws.CommandWord.applyPal
  | graypal bpp ch => exact Laws.CommandWord.graypal bpp ch
  | imgheight bpp => exact Laws.CommandWord.imgheight bpp
  | cfgcheck fmt bpp => exact Laws.CommandWord.cfgcheck fmt bpp
  | fmtlookup => exact Laws.CommandWord.fmtlookup
  | fmtname fmt => exact Laws.CommandWord.fmtname fmt
  | bpplist fmt => exact Laws.CommandWord.bpplist fmt

/-- A bit depth that fits its field is read back from it. -/
theorem toNat_ofNat_of_bppFits {bpp : Nat} (h : bppFits bpp = true) : (BitVec.ofNat 4 bpp).toNat = bpp :=
  Nat.mod_eq_of_lt (of_decide_eq_true h)

/-- The fields of a well-formed command's word are the command's. -/
theorem build_encode {i : Instr} (h : i.wf = true) : i.mnemonic.build (encode i) = i := by
  cases i with
  | getbits | setbits | getbit | setbit =>
    simp only [Instr.mnemonic, Mnemonic.build, encode, wwField_wordOf, WidthCode.ofField_toField]
  | pixdec | pixenc | rowdec | rowenc | tiledec | tileenc | sheetdec | sheetenc | cfgcheck =>
    simp only [Instr.mnemonic, Mnemonic.build, encode, fmtField_wordOf, bppField_wordOf, FmtCode.ofField_toField,
      toNat_ofNat_of_bppFits h]
  | graypal =>
    simp only [Instr.mnemonic, Mnemonic.build, encode, bppField_wordOf, chField_wordOf, ChCode.ofField_toField,
      toNat_ofNat_of_bppFits h]
  | imgheight => simp only [Instr.mnemonic, Mnemonic.build, encode, bppField_wordOf, toNat_ofNat_of_bppFits h]
  | fmtname | bpplist =>
    simp only [Instr.mnemonic, Mnemonic.build, encode, fmtField_wordOf, FmtCode.ofField_toField]
  | matchPix | applyPal | fmtlookup => rfl

/-- Settles O1: the word has the form the decoder accepts, and its fields are the command's. -/
theorem decodeOfEncodeIsIdentity : Obligations.DecodeOfEncodeIsIdentity := by
  intro i h
  obtain ⟨hopc, hrsv, hunused⟩ := commandWord_form i
  exact (decode_eq_ok_iff _ _).2 ⟨i.mnemonic, hopc, hrsv, hunused, build_encode h⟩

/-! ### The word of a decoded command -/

/-- The word of the command read from a word's fields has those the operation uses, and 0 for the others. -/
theorem encode_build (m : Mnemonic) (w : CmdWord) :
    encode (m.build w) =
      wordOf m.opc (if m.usesFmt then fmtField w else 0#2) (if m.usesBpp then bppField w else 0#4)
        (if m.usesCh then chField w else 0#2) (if m.usesWw then wwField w else 0#2) := by
  cases m <;>
    simp [encode, Mnemonic.build, Mnemonic.usesFmt, Mnemonic.usesBpp, Mnemonic.usesCh, Mnemonic.usesWw]

/-- A field that is 0 where it is not used is the field itself. -/
theorem ite_used_eq_self {n : Nat} {used : Bool} {b : BitVec n} (h : used = true ∨ b = 0#n) :
    (if used then b else 0#n) = b := by
  cases used <;> simp_all

/-- Settles O2: the fields the command does not hold are 0 in the word, as they are in its encoding. -/
theorem encodeOfDecodeIsIdentity : Obligations.EncodeOfDecodeIsIdentity := by
  intro w i h
  obtain ⟨m, hopc, hrsv, hunused, rfl⟩ := (decode_eq_ok_iff w i).1 h
  obtain ⟨hfmt, hbpp, hch, hww⟩ := (unusedFieldsZero_iff m w).1 hunused
  refine ⟨m.wf_build w, ?_⟩
  rw [encode_build, ite_used_eq_self hfmt, ite_used_eq_self hbpp, ite_used_eq_self hch, ite_used_eq_self hww, ← hopc,
    wordOf_fields hrsv]

/-! ### The rows of the opcode map -/

/-- The `match` of a row is its OPC with every other field 0 (R87). -/
theorem Mnemonic.matchMask_fst (m : Mnemonic) : m.matchMask.1 = wordOf m.opc 0#2 0#4 0#2 0#2 := by
  cases m <;> rfl

/-- The `mask` column of a field: all of its bits count where the operation does not use it, and none where it does. -/
def fieldMask (n : Nat) (used : Bool) : BitVec n := if used then 0#n else BitVec.allOnes n

theorem and_fieldMask_eq_zero_iff {n : Nat} (b : BitVec n) (used : Bool) :
    b &&& fieldMask n used = 0#n ↔ used = true ∨ b = 0#n := by
  cases used <;> simp [fieldMask]

/-- The `mask` of a row holds OPC, RSV and the fields the operation does not use (R87). -/
theorem Mnemonic.matchMask_snd_fields (m : Mnemonic) :
    opcField m.matchMask.2 = BitVec.allOnes 8 ∧ fmtField m.matchMask.2 = fieldMask 2 m.usesFmt ∧
      bppField m.matchMask.2 = fieldMask 4 m.usesBpp ∧ chField m.matchMask.2 = fieldMask 2 m.usesCh ∧
      wwField m.matchMask.2 = fieldMask 2 m.usesWw ∧ rsvField m.matchMask.2 = BitVec.allOnes 14 := by
  cases m <;> decide

/-- A word selects a row exactly when it has the row's OPC, and RSV and the fields the operation does not use are 0. -/
theorem Mnemonic.selects_iff (m : Mnemonic) (w : CmdWord) :
    m.selects w = true ↔ opcField w = m.opc ∧ rsvField w = 0#14 ∧ unusedFieldsZero m w = true := by
  obtain ⟨hopc, hfmt, hbpp, hch, hww, hrsv⟩ := m.matchMask_snd_fields
  simp only [Mnemonic.selects, beq_iff_eq, cmdWord_eq_iff_fields, m.matchMask_fst, opcField_wordOf, fmtField_wordOf,
    bppField_wordOf, chField_wordOf, wwField_wordOf, rsvField_wordOf, opcField_and, fmtField_and, bppField_and,
    chField_and, wwField_and, rsvField_and, hopc, hfmt, hbpp, hch, hww, hrsv, BitVec.and_allOnes,
    and_fieldMask_eq_zero_iff, unusedFieldsZero_iff]
  tauto

/-- Settles O3: the decoder accepts a word for an operation under the conditions under which it selects the row. -/
theorem decodeFollowsTheOpcodeMap : Obligations.DecodeFollowsTheOpcodeMap := by
  intro w m
  rw [m.selects_iff]
  constructor
  · rintro ⟨hopc, hrsv, hunused⟩
    exact ⟨m.build w, (decode_eq_ok_iff _ _).2 ⟨m, hopc, hrsv, hunused, rfl⟩, m.mnemonic_build w⟩
  · rintro ⟨i, hdec, rfl⟩
    obtain ⟨m, hopc, hrsv, hunused, rfl⟩ := (decode_eq_ok_iff w i).1 hdec
    rw [m.mnemonic_build]
    exact ⟨hopc, hrsv, hunused⟩

/-- Settles O4: the decoder run on each word. -/
theorem exampleWordsDecode : Obligations.ExampleWordsDecode :=
  ⟨rfl, rfl, rfl, rfl, rfl, rfl, rfl, rfl, rfl, rfl, rfl⟩

end Sys2Proof

/-! What commands refuse: reserved words, foreign and oversize records, fields outside their ranges (R88 to R90, R233). -/

namespace Sys2Proof.Machine

/-! ### The outcome of a refusal (R233) -/

/-- Settles O8: the step presents the word, and acceptance refuses it. -/
theorem reservedWordIsRefused : Obligations.ReservedWordIsRefused := by
  intro s r rest e hscript hdec hready
  rw [step_of_cons hscript]
  exact (runPresented_of_error (s := presentRequest r (dropMove rest s)) hdec).trans (refuseWord_of_ready hready)

/-- In IDLE or DONE a command whose pure result is a refusal sets the refusal mark and nothing else. -/
theorem exec_of_refuse {i : Instr} {s : State} {r : Record} (hready : Ready s) (hops : s.port.ops = r)
    (hres : commandResult i s.params r = .refuse) : exec i s = .next { s with refused := true } := by
  rw [exec_of_ready i hready, hops, hres]
  rfl

theorem ifShaped_eq_refuse {shape : Bool} {k : ExecResult} (h : shape = false) : ifShaped shape k = .refuse := by
  rw [h, ifShaped_false]

theorem withConfig_eq_refuse {fmt : FmtCode} {bpp : Nat} {k : Format → ExecResult}
    (hcfg : (checkCfg fmt bpp).toOption.isSome = true) (hk : ∀ f, k f = .refuse) : withConfig fmt bpp k = .refuse := by
  obtain ⟨f, -, -, hrun⟩ | ⟨e, herr, -⟩ := withConfig_cases fmt bpp k
  · exact hrun.trans (hk f)
  · simp [herr, Except.toOption] at hcfg

theorem withBpp_of_inRange {bpp : Nat} (h : bppInRange bpp = true) (k : ExecResult) : withBpp bpp k = k := if_pos h

theorem withFormat_eq_refuse {fmt : FmtCode} {k : Format → ExecResult} (hfmt : (formatOf fmt).isSome = true)
    (hk : ∀ f, k f = .refuse) : withFormat fmt k = .refuse := by
  obtain ⟨f, hf⟩ := Option.isSome_iff_exists.1 hfmt
  simp [withFormat, hf, hk]

/-! ### Records of other fields (R89, R90) -/

/-- FMTLOOKUP with a known name, or with none, refuses a record that is not a name alone (R227). -/
theorem fmtlookupResult_of_foreign {params : Params} {r : Record} (hname : nameLegal params r = true)
    (htakes : takesRecord .fmtlookup r = false) : fmtlookupResult params r = .refuse := by
  obtain ⟨-, h⟩ | ⟨name, hr, ⟨hnone, -⟩ | ⟨f, -, h⟩⟩ := fmtlookupResult_cases params r
  · exact h
  · simp [nameLegal, hr, hnone] at hname
  · rw [h]
    cases r with
    | name => cases htakes
    | _ => rfl

/-- With a legal configuration a command refuses a record that has not exactly its fields. -/
theorem commandResult_of_foreign {i : Instr} {params : Params} {r : Record} (hcfg : configLegal params r i = true)
    (htakes : takesRecord i r = false) : commandResult i params r = .refuse := by
  cases i with
  | getbits | setbits | getbit | setbit | matchPix | applyPal =>
    simp only [commandResult, getbitsResult, setbitsResult, getbitResult, setbitResult, matchResult, applyResult]
    split
    · cases htakes
    · rfl
  | pixdec | pixenc | rowdec | rowenc | tiledec | tileenc | sheetdec | sheetenc | cfgcheck =>
    refine withConfig_eq_refuse hcfg fun f => ?_
    split
    · cases htakes
    · rfl
  | graypal bpp ch =>
    obtain ⟨hbpp, hch⟩ := Bool.and_eq_true_iff.1 hcfg
    obtain ⟨channels, hchannels⟩ := Option.isSome_iff_exists.1 hch
    simp only [commandResult, graypalResult, withBpp_of_inRange hbpp, hchannels]
    split
    · cases htakes
    · rfl
  | imgheight =>
    refine (withBpp_of_inRange hcfg _).trans ?_
    split
    · cases htakes
    · rfl
  | fmtlookup => exact fmtlookupResult_of_foreign hcfg htakes
  | fmtname | bpplist =>
    refine withFormat_eq_refuse hcfg fun f => ?_
    split
    · cases htakes
    · rfl

/-! ### Records above capacity (R8, R90) -/

/-- The byte streams, byte counts, grids and sequences that a capacity of R8 bounds are within it. -/
def withinCapacity (params : Params) : Record → Bool
  | .bytesIn bytes => withinCap params.maxBytes bytes.length
  | .numBytes n => withinCap params.maxBytes n
  | .grid grid _ _ => withinCap params.maxElems grid.length
  | .idxPal idx _ => withinCap params.maxElems idx.length
  | .pixPal pix _ _ => withinCap params.maxElems pix.length
  | _ => true

theorem withinCap_some_of_lt {cap n : Nat} (h : cap < n) : withinCap (some cap) n = false := by
  simpa [withinCap] using h

/-- With a legal configuration a command refuses a record above capacity: the one command that takes it checks the bound,
and for every other the record is foreign. -/
theorem commandResult_of_oversize {i : Instr} {params : Params} {r : Record} (hcfg : configLegal params r i = true)
    (hcap : withinCapacity params r = false) : commandResult i params r = .refuse := by
  cases htakes : takesRecord i r with
  | false => exact commandResult_of_foreign hcfg htakes
  | true =>
    cases r with
    | bytesIn bytes =>
      cases i with
      | sheetdec => exact withConfig_eq_refuse hcfg fun f => ifShaped_eq_refuse hcap
      | _ => cases htakes
    | numBytes n =>
      cases i with
      | imgheight => exact (withBpp_of_inRange hcfg _).trans (ifShaped_eq_refuse hcap)
      | _ => cases htakes
    | grid grid width height =>
      cases i with
      | sheetenc => exact withConfig_eq_refuse hcfg fun f => ifShaped_eq_refuse hcap
      | _ => cases htakes
    | idxPal idx pal =>
      cases i with
      | applyPal => exact ifShaped_eq_refuse (by simp only [withinCapacity] at hcap; simp [applyShape, hcap])
      | _ => cases htakes
    | pixPal pix pixch pal =>
      cases i with
      | matchPix => exact ifShaped_eq_refuse (by simp only [withinCapacity] at hcap; simp [matchShape, hcap])
      | _ => cases htakes
    | _ => cases hcap

/-- Settles O21, by the refusals of foreign and of oversize records. -/
theorem foreignOrOversizeRecordIsRefused : Obligations.ForeignOrOversizeRecordIsRefused := by
  intro i s hready hcfg
  have hoversize : withinCapacity s.params s.port.ops = false → exec i s = .next { s with refused := true } :=
    fun hcap => exec_of_refuse hready rfl (commandResult_of_oversize hcfg hcap)
  refine ⟨fun htakes => exec_of_refuse hready rfl (commandResult_of_foreign hcfg htakes), fun cap hmax hlarge => ?_,
    fun cap hmax hlarge => ?_⟩ <;> apply hoversize
  · obtain ⟨bytes, hops, hlt⟩ | ⟨n, hops, hlt⟩ := hlarge <;>
      simp only [hops, withinCapacity, hmax, withinCap_some_of_lt hlt]
  · obtain ⟨grid, width, height, hops, hlt⟩ | ⟨idx, pal, hops, hlt⟩ | ⟨pix, pixch, pal, hops, hlt⟩ := hlarge <;>
      simp only [hops, withinCapacity, hmax, withinCap_some_of_lt hlt]

/-! ### Bitfield records outside their ranges (R89) -/

section bitfield

variable {ww : WidthCode} {word start n value bit b : Nat}

theorem bitfieldShape_eq_false_iff :
    bitfieldShape ww word start n = false ↔ 2 ^ widthBits ww ≤ word ∨ 64 < start ∨ 64 < n := by
  simp only [bitfieldShape, Bool.and_eq_false_iff, decide_eq_false_iff_not, not_lt, not_le, or_assoc]

theorem setBitfieldShape_eq_false_iff :
    setBitfieldShape ww word start n value = false ↔
      2 ^ widthBits ww ≤ word ∨ 64 < start ∨ 64 < n ∨ 2 ^ 64 ≤ value := by
  rw [setBitfieldShape, Bool.and_eq_false_iff, bitfieldShape_eq_false_iff, decide_eq_false_iff_not, not_lt, or_assoc,
    or_assoc]

theorem bitShape_eq_false_iff : bitShape ww word bit = false ↔ 2 ^ widthBits ww ≤ word ∨ 64 < bit := by
  simp only [bitShape, Bool.and_eq_false_iff, decide_eq_false_iff_not, not_lt, not_le]

theorem setBitShape_eq_false_iff :
    setBitShape ww word bit b = false ↔ 2 ^ widthBits ww ≤ word ∨ 64 < bit ∨ 2 ^ 64 ≤ b := by
  rw [setBitShape, Bool.and_eq_false_iff, bitShape_eq_false_iff, decide_eq_false_iff_not, not_lt, or_assoc]

end bitfield

/-- Settles O28: each range is part of the record's shape. -/
theorem bitfieldRangesAreRefused : Obligations.BitfieldRangesAreRefused := by
  intro ww word start n value s hready
  exact ⟨
    fun hops hbad => exec_of_refuse hready hops (ifShaped_eq_refuse (bitfieldShape_eq_false_iff.2 hbad)),
    fun hops hbad => exec_of_refuse hready hops (ifShaped_eq_refuse (setBitfieldShape_eq_false_iff.2 hbad)),
    fun hops hbad => exec_of_refuse hready hops (ifShaped_eq_refuse (bitShape_eq_false_iff.2 hbad)),
    fun hops hbad => exec_of_refuse hready hops (ifShaped_eq_refuse (setBitShape_eq_false_iff.2 hbad))⟩

/-! ### Tiles, rows and coordinates of the wrong shape (R90) -/

section tile

variable {bpp y x : Nat} {tile : List Byte} {l : List Nat}

theorem tileShape_eq_false_iff : tileShape bpp tile = false ↔ tile.length ≠ bpp * 8 := by
  simp [tileShape]

theorem tileRowShape_eq_false_iff :
    (tileShape bpp tile && coordShape y) = false ↔ tile.length ≠ bpp * 8 ∨ 8 ≤ y := by
  rw [Bool.and_eq_false_iff, tileShape_eq_false_iff, coordShape, decide_eq_false_iff_not, not_lt]

theorem tilePixelShape_eq_false_iff :
    (tileShape bpp tile && coordShape y && coordShape x) = false ↔ tile.length ≠ bpp * 8 ∨ 8 ≤ y ∨ 8 ≤ x := by
  rw [Bool.and_eq_false_iff, tileRowShape_eq_false_iff, coordShape, decide_eq_false_iff_not, not_lt, or_assoc]

theorem rowShape_eq_false_iff : rowShape l = false ↔ l.length ≠ 8 := by
  simp [rowShape]

theorem tpixShape_eq_false_iff : tpixShape l = false ↔ l.length ≠ 64 := by
  simp [tpixShape]

end tile

/-- Settles O41: a legal pair lets the command go on to its record, and each condition is part of the record's shape. -/
theorem tileShapesAreRefused : Obligations.TileShapesAreRefused := by
  intro f bpp y x v tile l s hready hlegal
  have hrefuse : ∀ {shape : Bool} {k : Format → ExecResult}, shape = false →
      withConfig (formatCode f) bpp (fun g => ifShaped shape (k g)) = .refuse :=
    fun h => (withConfig_of_legal hlegal _).trans (ifShaped_eq_refuse h)
  exact ⟨
    fun hops hbad => exec_of_refuse hready hops (hrefuse (tilePixelShape_eq_false_iff.2 hbad)),
    fun hops hbad => exec_of_refuse hready hops (hrefuse (tilePixelShape_eq_false_iff.2 hbad)),
    fun hops hbad => exec_of_refuse hready hops (hrefuse (tileRowShape_eq_false_iff.2 hbad)),
    fun hops hbad => exec_of_refuse hready hops (hrefuse (rowShape_eq_false_iff.2 hbad)),
    fun hops hbad => exec_of_refuse hready hops (hrefuse (tileShape_eq_false_iff.2 hbad)),
    fun hops hbad => exec_of_refuse hready hops (hrefuse (tpixShape_eq_false_iff.2 hbad))⟩

end Sys2Proof.Machine

/-! The default-palette decode path: IMGHEIGHT, SHEETDEC, GRAYPAL, APPLY (R92, R187). -/

namespace Sys2Proof.Machine

/-! ### Decoded indices fit the bit depth (R127, R129) -/

/-- A sum of one bit at each of the first `n` positions is below 2^n. -/
theorem sum_bits_lt_two_pow (bit : Nat → Nat) (hbit : ∀ i, bit i ≤ 1) (n : Nat) :
    ((List.range n).map fun i => bit i <<< i).sum < 2 ^ n := by
  induction n with
  | zero => simp
  | succ n ih =>
    have hlast : bit n <<< n ≤ 2 ^ n := by
      simpa [Nat.shiftLeft_eq] using Nat.mul_le_mul_right (2 ^ n) (hbit n)
    simp only [List.range_succ, List.map_append, List.sum_append, List.map_singleton, List.sum_singleton, pow_succ]
    omega

theorem bitAt_le_one (v i : Nat) : bitAt v i ≤ 1 := Nat.and_le_right

theorem getBits_lt_two_pow (word start n : Nat) : getBits word start n < 2 ^ n :=
  Nat.and_lt_two_pow _ (Nat.sub_lt (Nat.two_pow_pos n) Nat.one_pos)

/-- Every decoded index fits the bit depth, whatever the bytes. -/
theorem decPix_lt_two_pow (fmt : Format) (bpp : Nat) (tile : List Byte) (y x : Nat) :
    decPix fmt bpp tile y x < 2 ^ bpp := by
  cases fmt with
  | planar | interwined => exact sum_bits_lt_two_pow _ (fun i => bitAt_le_one _ _) bpp
  | gba => exact getBits_lt_two_pow _ _ _

/-! ### The decoded sheet (R161 to R163) -/

theorem length_decRow (fmt : Format) (bpp : Nat) (tile : List Byte) (y : Nat) : (decRow fmt bpp tile y).length = 8 := by
  simp [decRow]

section sheet

variable (fmt : Format) (bpp : Nat) (bytes : List Byte)

theorem length_sheetTileRow (r y t : Nat) : (sheetTileRow fmt bpp bytes r y t).length = 8 := by
  unfold sheetTileRow
  split
  · exact length_decRow ..
  · exact List.length_replicate

theorem length_sheetRow (r y : Nat) : (sheetRow fmt bpp bytes r y).length = 128 := by
  simp [sheetRow, List.length_flatMap, length_sheetTileRow, tilesPerRow]

/-- The sheet has eight pixel rows for each tile row begun. -/
theorem length_sheetRows : (sheetRows fmt bpp bytes).length = 8 * ceildiv bytes.length (bytesPerRow bpp) := by
  simp [sheetRows, List.length_flatMap, tileSide, mul_comm]

theorem length_of_mem_sheetRows {row : List Nat} (h : row ∈ sheetRows fmt bpp bytes) : row.length = 128 := by
  simp only [sheetRows, List.mem_flatMap, List.mem_map] at h
  obtain ⟨r, -, y, -, rfl⟩ := h
  exact length_sheetRow ..

theorem length_flatten_sheetRows :
    (sheetRows fmt bpp bytes).flatten.length = 128 * (8 * ceildiv bytes.length (bytesPerRow bpp)) := by
  rw [List.length_flatten, List.map_congr_left fun row h => length_of_mem_sheetRows fmt bpp bytes h, List.map_const',
    List.sum_replicate, length_sheetRows, smul_eq_mul, mul_comm]

/-- Decoded or padded, every index of a tile's row fits the bit depth. -/
theorem lt_two_pow_of_mem_sheetTileRow {r y t i : Nat} (h : i ∈ sheetTileRow fmt bpp bytes r y t) : i < 2 ^ bpp := by
  unfold sheetTileRow at h
  split at h
  · obtain ⟨x, -, rfl⟩ := List.mem_map.1 h
    exact decPix_lt_two_pow ..
  · rw [List.eq_of_mem_replicate h]
    exact Nat.two_pow_pos bpp

/-- Every index of the sheet fits the bit depth. -/
theorem lt_two_pow_of_mem_flatten_sheetRows {i : Nat} (h : i ∈ (sheetRows fmt bpp bytes).flatten) : i < 2 ^ bpp := by
  simp only [sheetRows, sheetRow, List.mem_flatten, List.mem_flatMap, List.mem_map] at h
  obtain ⟨row, ⟨r, -, y, -, rfl⟩, hi⟩ := h
  obtain ⟨t, -, ht⟩ := List.mem_flatMap.1 hi
  exact lt_two_pow_of_mem_sheetTileRow fmt bpp bytes ht

end sheet

/-- IMGHEIGHT's rounded byte count is a whole number of tile rows, of eight pixel rows each (R200, R201). -/
theorem imgHeight_eq {bpp : Nat} (hbpp : 0 < bpp) (n : Nat) : imgHeight n bpp = 8 * ceildiv n (bytesPerRow bpp) := by
  have hpos : 0 < bytesPerTile bpp := Nat.mul_pos hbpp (by decide)
  rw [imgHeight, bytesPerRow, mul_comm (bytesPerTile bpp), ← mul_assoc, Nat.mul_div_cancel _ hpos,
    Nat.mul_div_cancel _ (by decide), mul_comm, tileSide]

/-! ### The default grayscale palette (R188, R190) -/

theorem length_grayEntries (channels bpp : Nat) : (grayEntries channels bpp).length = 2 ^ bpp := by
  simp [grayEntries]

theorem length_grayColour (channels g : Nat) : (grayColour channels g).length = channels := by
  unfold grayColour
  split
  next h => exact h.symm
  next => exact List.length_replicate

/-- The channel counts of CH are those of a palette (R85, R180). -/
theorem channelsOf_cases {ch : ChCode} {channels : Nat} (h : channelsOf ch = some channels) :
    channels = 1 ∨ channels = 3 ∨ channels = 4 := by
  cases ch <;> simp_all [channelsOf]

theorem paletteShape_gray {params : Params} (hcap : params.palCap = none) {ch : ChCode} {channels : Nat}
    (hch : channelsOf ch = some channels) (bpp : Nat) :
    paletteShape params ⟨channels, grayEntries channels bpp⟩ = true := by
  have hcount := channelsOf_cases hch
  simp only [paletteShape, hcap, withinCap, Bool.and_eq_true, Bool.or_eq_true, beq_iff_eq, List.all_eq_true, colourShape,
    grayEntries, List.mem_map, and_true, or_assoc]
  refine ⟨hcount, ?_⟩
  rintro c ⟨t, -, rfl⟩
  exact length_grayColour ..

/-! ### APPLY with every index in range (R186) -/

/-- With every index below the palette size APPLY's scan finds a colour for each. -/
theorem applyFrom_of_lt {entries : List Colour} {idx : List Nat} (h : ∀ i ∈ idx, i < entries.length) (pos : Nat) :
    applyFrom entries pos idx = .ok (idx.map fun i => entries.getD i []) := by
  induction idx generalizing pos with
  | nil => rfl
  | cons i rest ih =>
    have hi : i < entries.length := h i List.mem_cons_self
    simp [applyFrom, List.getElem?_eq_getElem hi, ih fun j hj => h j (List.mem_cons_of_mem i hj)]

/-! ### The path (R92) -/

theorem elementIndices_map_indices (rows : List (List Nat)) : elementIndices (rows.map .indices) = rows.flatten := by
  simp [elementIndices, List.flatMap_map, List.flatMap_id']

theorem elementColours_map_colour (cs : List Colour) : elementColours (cs.map .colour) = cs := by
  simp [elementColours, List.flatMap_map]

theorem bppInRange_of_legalPair {f : Format} {bpp : Nat} (h : legalPair f bpp = true) : bppInRange bpp = true := by
  have hcfg := checkCfg_formatCode h
  by_contra hbpp
  cases f <;> simp [checkCfg, formatOf, formatCode, hbpp] at hcfg

theorem imgheightResult_ok {params : Params} {bpp n : Nat} (hcap : params.maxBytes = none)
    (hbpp : bppInRange bpp = true) : imgheightResult params bpp (.numBytes n) = .ok [.nat (imgHeight n bpp)] := by
  rw [imgheightResult, withBpp_of_inRange hbpp, hcap]
  rfl

theorem sheetdecResult_ok {params : Params} {f : Format} {bpp : Nat} (hcap : params.maxBytes = none)
    (hlegal : legalPair f bpp = true) (bytes : List Byte) :
    sheetdecResult params (formatCode f) bpp (.bytesIn bytes) = .ok ((sheetRows f bpp bytes).map .indices) := by
  rw [sheetdecResult, withConfig_of_legal hlegal, hcap]
  rfl

theorem graypalResult_ok {bpp : Nat} {ch : ChCode} {channels : Nat} (hbpp : bppInRange bpp = true)
    (hch : channelsOf ch = some channels) :
    graypalResult bpp ch .empty = .ok ((grayEntries channels bpp).map .colour) := by
  rw [graypalResult, withBpp_of_inRange hbpp, hch]

/-- Without bounds on capacity, APPLY with the default palette gives a colour for each index that fits the bit depth. -/
theorem applyWithPalette_gray {params : Params} {bpp : Nat} {ch : ChCode} {channels : Nat} {idx : List Nat}
    (helems : params.maxElems = none) (hpal : params.palCap = none) (hbpp : bppInRange bpp = true)
    (hch : channelsOf ch = some channels) (hidx : ∀ i ∈ idx, i < 2 ^ bpp) :
    applyWithPalette params bpp ch none idx =
      .ok ((idx.map fun i => (grayEntries channels bpp).getD i []).map .colour) := by
  have hshape : applyShape params idx ⟨channels, grayEntries channels bpp⟩ = true := by
    rw [applyShape, helems, paletteShape_gray hpal hch]
    rfl
  have hscan := applyFrom_of_lt (fun i hi => (hidx i hi).trans_eq (length_grayEntries channels bpp).symm) 0
  simp only [applyWithPalette, graypalResult_ok hbpp hch, andThen, hch, elementColours_map_colour, applyResult, hshape,
    ifShaped_true, hscan]

/-- Settles O60: every index of the decoded sheet is below 2^bpp, the size of the default palette. -/
theorem defaultDecodePathAlwaysSucceeds : Obligations.DefaultDecodePathAlwaysSucceeds := by
  intro params f bpp ch bytes hlegal hch hbytes helems hpal
  obtain ⟨channels, hchannels⟩ : ∃ channels, channelsOf ch = some channels := by
    cases ch <;> simp_all [channelsOf]
  have hbpp := bppInRange_of_legalPair hlegal
  have hpos : 0 < bpp := of_decide_eq_true (Bool.and_eq_true_iff.1 hbpp).1
  have happly := applyWithPalette_gray helems hpal hbpp hchannels
    fun i hi => lt_two_pow_of_mem_flatten_sheetRows f bpp bytes hi
  have hpath : decodePath params (formatCode f) bpp ch none bytes =
      applyWithPalette params bpp ch none (sheetRows f bpp bytes).flatten := by
    simp only [decodePath, imgheightResult_ok hbytes hbpp, sheetdecResult_ok hbytes hlegal, andThen,
      elementIndices_map_indices]
  refine ⟨_, hpath.trans happly, ?_⟩
  simp only [List.length_map, length_flatten_sheetRows, imgHeight_eq hpos]

end Sys2Proof.Machine

/-! The bitfield commands bit by bit (40_bitfield.md): each primitive is fixed by its bits, and a command with its operands
in range emits its primitive's value. -/

namespace Sys2Proof.Machine

/-! ### Each bit of the primitives (R100 to R104) -/

section bits

variable (w word start n value bit b k : Nat)

@[simp] theorem testBit_mask : (mask n).testBit k = decide (k < n) := Nat.testBit_two_pow_sub_one n k

@[simp] theorem testBit_clearMask (a m : Nat) : (clearMask a m).testBit k = (a.testBit k && !m.testBit k) := by
  rw [clearMask, Nat.testBit_xor, Nat.testBit_and]
  cases a.testBit k <;> simp

@[simp] theorem testBit_getBits :
    (getBits word start n).testBit k = (decide (k < n) && word.testBit (start + k)) := by
  rw [getBits, Nat.testBit_and, Nat.testBit_shiftRight, testBit_mask, Bool.and_comm]

/-- Position `k` lies in the field of `n` bits at `start`. -/
theorem testBit_mask_shiftLeft : (mask n <<< start).testBit k = decide (start ≤ k ∧ k < start + n) := by
  rw [Nat.testBit_shiftLeft, testBit_mask, ← Bool.decide_and, decide_eq_decide]
  omega

/-- A value's low bits, moved to the field, stand in the field alone. -/
theorem testBit_and_mask_shiftLeft :
    ((value &&& mask n) <<< start).testBit k = (decide (start ≤ k ∧ k < start + n) && value.testBit (k - start)) := by
  rw [← testBit_mask_shiftLeft, Nat.testBit_shiftLeft, Nat.testBit_shiftLeft, Nat.testBit_and, Bool.and_assoc,
    Bool.and_comm (value.testBit _)]

/-- Inside the field a bit comes from the value, outside it from the word, and none stands at or above the width. -/
@[simp] theorem testBit_setBits :
    (setBits w word start n value).testBit k =
      (decide (k < w) && if start ≤ k ∧ k < start + n then value.testBit (k - start) else word.testBit k) := by
  rw [setBits, Nat.testBit_mod_two_pow, Nat.testBit_or, testBit_clearMask, testBit_mask_shiftLeft,
    testBit_and_mask_shiftLeft]
  by_cases hfield : start ≤ k ∧ k < start + n
  · simp [hfield]
  · simp [hfield]

theorem setBits_lt_two_pow : setBits w word start n value < 2 ^ w := Nat.mod_lt _ (Nat.two_pow_pos w)

/-- GETBIT is GETBITS of one bit (R102). -/
theorem getBit_eq_getBits : getBit word bit = getBits word bit 1 := rfl

/-- SETBIT is SETBITS of one bit (R103). -/
theorem setBit_eq_setBits : setBit w word bit b = setBits w word bit 1 b := rfl

@[simp] theorem testBit_setBit :
    (setBit w word bit b).testBit k = (decide (k < w) && if k = bit then b.testBit 0 else word.testBit k) := by
  have hfield : (bit ≤ k ∧ k < bit + 1) ↔ k = bit := by omega
  rw [setBit_eq_setBits, testBit_setBits, if_congr hfield rfl rfl]
  split
  next h => rw [h, Nat.sub_self]
  next => rfl

theorem setBit_lt_two_pow : setBit w word bit b < 2 ^ w := setBits_lt_two_pow w word bit 1 b

theorem getBit_eq_ite : getBit word bit = if word.testBit bit then 1 else 0 := by
  rw [getBit, Nat.and_one_is_mod, Nat.shiftRight_eq_div_pow, ← Nat.toNat_testBit]
  cases word.testBit bit <;> rfl

end bits

/-! ### The laws of the values (R105) -/

section laws

variable {w word start n start' n' : Nat}

/-- Reading a field just written gives the value's low bits. -/
theorem getBits_setBits_same (h : start + n ≤ w) (word v : Nat) :
    getBits (setBits w word start n v) start n = v % 2 ^ n := by
  refine Nat.eq_of_testBit_eq fun k => ?_
  rw [testBit_getBits, testBit_setBits, Nat.testBit_mod_two_pow]
  by_cases hk : k < n
  · have hw : start + k < w := by omega
    simp [hk, hw]
  · simp [hk]

/-- Writing back the field just read changes nothing, in contract or not. -/
theorem setBits_getBits_same (hword : word < 2 ^ w) (start n : Nat) :
    setBits w word start n (getBits word start n) = word := by
  refine Nat.eq_of_testBit_eq fun k => ?_
  rw [testBit_setBits, testBit_getBits]
  by_cases hk : k < w
  · split
    next hfield =>
      have hlow : k - start < n := by omega
      simp [hk, hlow, Nat.add_sub_cancel' hfield.1]
    next => simp [hk]
  · simp [hk, Nat.testBit_eq_false_of_lt (hword.trans_le (Nat.pow_le_pow_right two_pos (not_lt.1 hk)))]

/-- Writes to disjoint fields commute: no position lies in both. -/
theorem setBits_setBits_comm (h : start + n ≤ start' ∨ start' + n' ≤ start) (word v v' : Nat) :
    setBits w (setBits w word start n v) start' n' v' = setBits w (setBits w word start' n' v') start n v := by
  refine Nat.eq_of_testBit_eq fun k => ?_
  simp only [testBit_setBits]
  by_cases hk : k < w
  · by_cases hfield : start ≤ k ∧ k < start + n
    · have hother : ¬(start' ≤ k ∧ k < start' + n') := by omega
      simp [hk, hfield, hother]
    · simp [hk, hfield]
  · simp [hk]

end laws

/-- Settles O27, by comparing bits; the laws of the one-bit commands hold by definition. -/
theorem bitfieldLaws : Obligations.BitfieldLaws := by
  intro w word start n v hword hfit
  exact ⟨getBits_setBits_same hfit word v, setBits_getBits_same hword start n,
    fun _ _ v' _ hdisjoint => setBits_setBits_comm hdisjoint word v v',
    fun bit _ => ⟨getBit_eq_getBits word bit, setBit_eq_setBits w word bit v⟩⟩

/-! ### Commands with their operands in range (R29, R89) -/

theorem ifShaped_of_eq_true {shape : Bool} {k : ExecResult} (h : shape = true) : ifShaped shape k = k := by
  rw [h, ifShaped_true]

/-- A ready block starts a command whose result is a nonempty output. -/
theorem exec_of_ok {i : Instr} {s : State} {r : Record} {es : List Element} (hready : Ready s) (hops : s.port.ops = r)
    (hres : commandResult i s.params r = .ok es) (hes : es ≠ []) : exec i s = .next (startedWith es s) := by
  rw [exec_of_ready i hready, hops, hres, acceptOutcome_ok hes]

section exec

variable {ww : WidthCode} {word start n value bit b : Nat} {s : State}

theorem exec_getbits (hready : Ready s) (hops : s.port.ops = .wordStartN word start n)
    (hword : word < 2 ^ widthBits ww) (hstart : start ≤ 64) (hn : n ≤ 64) :
    exec (.getbits ww) s = .next (startedWith [.word (getBits word start n)] s) :=
  have hshape : bitfieldShape ww word start n = true := by simp [bitfieldShape, hword, hstart, hn]
  exec_of_ok hready hops (ifShaped_of_eq_true hshape) (List.cons_ne_nil _ _)

theorem exec_setbits (hready : Ready s) (hops : s.port.ops = .wordStartNValue word start n value)
    (hword : word < 2 ^ widthBits ww) (hstart : start ≤ 64) (hn : n ≤ 64) (hvalue : value < 2 ^ 64) :
    exec (.setbits ww) s = .next (startedWith [.word (setBits (widthBits ww) word start n value)] s) :=
  have hshape : setBitfieldShape ww word start n value = true := by
    simp only [setBitfieldShape, bitfieldShape, hword, hstart, hn, hvalue, decide_true, Bool.and_true]
  exec_of_ok hready hops (ifShaped_of_eq_true hshape) (List.cons_ne_nil _ _)

theorem exec_getbit (hready : Ready s) (hops : s.port.ops = .wordBit word bit) (hword : word < 2 ^ widthBits ww)
    (hbit : bit ≤ 64) : exec (.getbit ww) s = .next (startedWith [.word (getBit word bit)] s) :=
  have hshape : bitShape ww word bit = true := by simp [bitShape, hword, hbit]
  exec_of_ok hready hops (ifShaped_of_eq_true hshape) (List.cons_ne_nil _ _)

theorem exec_setbit (hready : Ready s) (hops : s.port.ops = .wordBitB word bit b) (hword : word < 2 ^ widthBits ww)
    (hbit : bit ≤ 64) (hb : b < 2 ^ 64) :
    exec (.setbit ww) s = .next (startedWith [.word (setBit (widthBits ww) word bit b)] s) :=
  have hshape : setBitShape ww word bit b = true := by
    simp only [setBitShape, bitShape, hword, hbit, hb, decide_true, Bool.and_true]
  exec_of_ok hready hops (ifShaped_of_eq_true hshape) (List.cons_ne_nil _ _)

end exec

/-- Settles O23: the bits of GETBITS are those of the field. -/
theorem getbitsEmitsTheField : Obligations.GetbitsEmitsTheField := by
  intro ww word start n s hready hops hword hstart hn
  exact ⟨_, exec_getbits hready hops hword hstart hn, testBit_getBits word start n⟩

/-- Settles O24: below the width the bits of SETBITS are the value's in the field and the word's outside it. -/
theorem setbitsReplacesOnlyTheField : Obligations.SetbitsReplacesOnlyTheField := by
  intro ww word start n value s hready hops hword hstart hn hvalue
  refine ⟨_, exec_setbits hready hops hword hstart hn hvalue, setBits_lt_two_pow .., fun k hk => ?_⟩
  rw [testBit_setBits, decide_eq_true hk, Bool.true_and]

/-- Settles O25: GETBIT's value is the number of its one bit. -/
theorem getbitEmitsTheBit : Obligations.GetbitEmitsTheBit := by
  intro ww word bit s hready hops hword hbit
  rw [exec_getbit hready hops hword hbit, getBit_eq_ite]

/-- Settles O26: SETBIT is SETBITS of a field that holds one position. -/
theorem setbitReplacesOneBit : Obligations.SetbitReplacesOneBit := by
  intro ww word bit b s hready hops hword hbit hb
  refine ⟨_, exec_setbit hready hops hword hbit hb, setBit_lt_two_pow .., fun k hk => ?_⟩
  rw [testBit_setBit, decide_eq_true hk, Bool.true_and]

end Sys2Proof.Machine

/-! The tile codec bit by bit (41_pixel_codec.md): where each layout keeps each bit of each index, and what the codec
commands emit. -/

namespace Sys2Proof.Machine

/-! ### Legal pairs (R212) -/

theorem legalPair_gba_iff (bpp : Nat) : legalPair .gba bpp = true ↔ bpp = 4 ∨ bpp = 8 := by
  simp [legalPair, bppSet]

theorem legalPair_iff_of_ne_gba {f : Format} (hf : f ≠ .gba) (bpp : Nat) :
    legalPair f bpp = true ↔ 1 ≤ bpp ∧ bpp ≤ 8 := by
  have hset : bpp ∈ [1, 2, 3, 4, 5, 6, 7, 8] ↔ 1 ≤ bpp ∧ bpp ≤ 8 := by
    simp only [List.mem_cons, List.not_mem_nil, or_false]
    omega
  rw [← hset]
  cases f with
  | planar | interwined => exact decide_eq_true_iff
  | gba => exact absurd rfl hf

/-! ### Row-byte offsets (R126) -/

theorem rowOff_interwined_pair {bpp j : Nat} (h : j < 2 * (bpp / 2)) (y : Nat) :
    rowOff .interwined bpp y j = 16 * (j / 2) + 2 * y + j % 2 := if_pos h

theorem rowOff_interwined_last {bpp j : Nat} (h : 2 * (bpp / 2) ≤ j) (y : Nat) :
    rowOff .interwined bpp y j = 16 * (bpp / 2) + y := if_neg (not_lt.2 h)

section offsets

variable {f : Format} {bpp y j y' j' : Nat}

theorem rowOff_lt (hlegal : legalPair f bpp = true) (hy : y < 8) (hj : j < bpp) : rowOff f bpp y j < bpp * 8 := by
  cases f with
  | planar => simp only [rowOff]; omega
  | interwined => simp only [rowOff]; split <;> omega
  | gba => obtain rfl | rfl := (legalPair_gba_iff bpp).1 hlegal <;> simp only [rowOff] <;> omega

/-- No two row bytes share an offset. -/
theorem rowOff_inj (hlegal : legalPair f bpp = true) (hy : y < 8) (hj : j < bpp) (hy' : y' < 8) (hj' : j' < bpp) :
    rowOff f bpp y' j' = rowOff f bpp y j ↔ y' = y ∧ j' = j := by
  refine ⟨fun heq => ?_, by rintro ⟨rfl, rfl⟩; rfl⟩
  cases f with
  | planar => simp only [rowOff] at heq; omega
  | interwined => simp only [rowOff] at heq; split at heq <;> split at heq <;> omega
  | gba => obtain rfl | rfl := (legalPair_gba_iff bpp).1 hlegal <;> simp only [rowOff] at heq <;> omega

/-- Every byte of the tile is some row's byte. -/
theorem exists_rowOff_eq (hlegal : legalPair f bpp = true) {o : Nat} (ho : o < bpp * 8) :
    ∃ y j, y < 8 ∧ j < bpp ∧ rowOff f bpp y j = o := by
  cases f with
  | planar => exact ⟨o % 8, o / 8, by omega, by omega, by simp only [rowOff]; omega⟩
  | interwined =>
    by_cases hpair : o < 16 * (bpp / 2)
    · exact ⟨o % 16 / 2, 2 * (o / 16) + o % 2, by omega, by omega, by rw [rowOff_interwined_pair] <;> omega⟩
    · exact ⟨o - 16 * (bpp / 2), bpp - 1, by omega, by omega, by rw [rowOff_interwined_last] <;> omega⟩
  | gba =>
    have hpos : 0 < bpp := by omega
    exact ⟨o / bpp, o % bpp, Nat.div_lt_of_lt_mul ho, Nat.mod_lt o hpos, Nat.div_add_mod o bpp⟩

end offsets

/-- Settles O29: the offset of each format is one-to-one and onto. -/
theorem rowOffsetsCoverTheTileOnce : Obligations.RowOffsetsCoverTheTileOnce := by
  refine ⟨fun _ _ _ => rfl, fun _ y _ h => rowOff_interwined_pair h y, fun _ y _ h => rowOff_interwined_last h y,
    fun _ _ _ => rfl, fun _ _ => ⟨rfl, rfl⟩, fun f bpp hlegal => ⟨fun y j => rowOff_lt hlegal, fun o ho => ?_⟩⟩
  obtain ⟨y, j, hy, hj, rfl⟩ := exists_rowOff_eq hlegal ho
  exact ⟨y, j, hy, hj, rfl, fun y' j' hy' hj' => (rowOff_inj hlegal hy hj hy' hj').1⟩

/-! ### Where a bit of an index stands in its row (R127, R128) -/

/-- The row byte that holds bit `i` of pixel `x`. -/
def bitByte (f : Format) (bpp x i : Nat) : Nat :=
  match f with
  | .planar | .interwined => i
  | .gba => x * bpp / 8

/-- The position in its byte of bit `i` of pixel `x`. -/
def bitPos (f : Format) (bpp x i : Nat) : Nat :=
  match f with
  | .planar | .interwined => 7 - x
  | .gba => x * bpp % 8 + i

section place

variable {f : Format} {bpp x i : Nat}

theorem bitByte_lt (hlegal : legalPair f bpp = true) (hx : x < 8) (hi : i < bpp) : bitByte f bpp x i < bpp := by
  cases f with
  | planar | interwined => exact hi
  | gba => obtain rfl | rfl := (legalPair_gba_iff bpp).1 hlegal <;> simp only [bitByte] <;> omega

theorem bitPos_lt (hlegal : legalPair f bpp = true) (hi : i < bpp) : bitPos f bpp x i < 8 := by
  cases f with
  | planar | interwined => simp only [bitPos]; omega
  | gba => obtain rfl | rfl := (legalPair_gba_iff bpp).1 hlegal <;> simp only [bitPos] <;> omega

/-- Every bit of a row byte is some bit of some pixel. -/
theorem exists_bitByte_bitPos {j k : Nat} (hlegal : legalPair f bpp = true) (hj : j < bpp) (hk : k < 8) :
    ∃ x i, x < 8 ∧ i < bpp ∧ bitByte f bpp x i = j ∧ bitPos f bpp x i = k := by
  cases f with
  | planar | interwined => exact ⟨7 - k, j, by omega, hj, rfl, by simp only [bitPos]; omega⟩
  | gba =>
    obtain rfl | rfl := (legalPair_gba_iff bpp).1 hlegal
    · exact ⟨2 * j + k / 4, k % 4, by omega, by omega, by simp only [bitByte]; omega, by simp only [bitPos]; omega⟩
    · exact ⟨j, k, hj, hk, by simp only [bitByte]; omega, by simp only [bitPos]; omega⟩

end place

/-! ### Bits of bytes and sums of bits -/

theorem testBit_readByte (buf : List Byte) (a k : Nat) : (readByte buf a).testBit k = (buf.getD a 0).getLsbD k := rfl

theorem testBit_bitAt (v i : Nat) : (bitAt v i).testBit 0 = v.testBit i := by
  simp [bitAt]

theorem and_mask_eq_mod (v n : Nat) : v &&& mask n = v % 2 ^ n := Nat.and_two_pow_sub_one_eq_mod v n

theorem getBits_eq_div_mod (word start n : Nat) : getBits word start n = word / 2 ^ start % 2 ^ n := by
  rw [getBits, and_mask_eq_mod, Nat.shiftRight_eq_div_pow]

/-- In a sum of one bit at each of the first `n` positions each bit stands alone. -/
theorem testBit_sum_bits (bit : Nat → Nat) (hbit : ∀ i, bit i ≤ 1) (n k : Nat) :
    (((List.range n).map fun i => bit i <<< i).sum).testBit k = (decide (k < n) && (bit k).testBit 0) := by
  induction n with
  | zero => simp
  | succ n ih =>
    have hlow := sum_bits_lt_two_pow bit hbit n
    rw [List.range_succ, List.map_append, List.sum_append, List.map_singleton, List.sum_singleton, Nat.shiftLeft_eq,
      mul_comm, add_comm, Nat.testBit_two_pow_mul_add _ hlow, ih]
    obtain hk | rfl | hk := lt_trichotomy k n
    · simp [hk, hk.trans (Nat.lt_succ_self n)]
    · simp
    · have hhigh : bit n < 2 ^ (k - n) := (hbit n).trans_lt (Nat.one_lt_two_pow (by omega))
      rw [if_neg (by omega), Nat.testBit_lt_two_pow hhigh, decide_eq_false (by omega), Bool.false_and]

/-- The low nibble of a byte holds one value's low bits, the high nibble another's. -/
theorem testBit_nibbles (low high : Nat) {i : Nat} (hi : i < 4) :
    (low % 2 ^ 4 + 2 ^ 4 * (high % 2 ^ 4)).testBit i = low.testBit i ∧
      (low % 2 ^ 4 + 2 ^ 4 * (high % 2 ^ 4)).testBit (4 + i) = high.testBit i := by
  have hlow : low % 2 ^ 4 < 2 ^ 4 := Nat.mod_lt _ (Nat.two_pow_pos 4)
  rw [add_comm, Nat.testBit_two_pow_mul_add _ hlow, Nat.testBit_two_pow_mul_add _ hlow]
  simp [hi, Nat.testBit_mod_two_pow, -Nat.reducePow]

/-! ### The decoder's bits (R127) -/

section decode

variable {f : Format} {bpp y x i : Nat} {tile : List Byte}

/-- Each bit of a decoded index is the tile's bit at its place. -/
theorem testBit_decPix (hi : i < bpp) :
    (decPix f bpp tile y x).testBit i =
      (tile.getD (rowOff f bpp y (bitByte f bpp x i)) 0).getLsbD (bitPos f bpp x i) := by
  cases f with
  | planar | interwined =>
    refine (testBit_sum_bits _ (fun _ => bitAt_le_one _ _) bpp i).trans ?_
    rw [decide_eq_true hi, Bool.true_and, testBit_bitAt]
    rfl
  | gba =>
    refine (testBit_getBits _ _ bpp i).trans ?_
    rw [decide_eq_true hi, Bool.true_and]
    rfl

/-- A decoded index is the low bits of a value exactly when its bits below the bit depth are the value's. -/
theorem decPix_eq_mod_iff {v : Nat} :
    decPix f bpp tile y x = v % 2 ^ bpp ↔ ∀ i < bpp, (decPix f bpp tile y x).testBit i = v.testBit i := by
  refine ⟨fun h i hi => by rw [h, Nat.testBit_mod_two_pow, decide_eq_true hi, Bool.true_and], fun h => ?_⟩
  refine Nat.eq_of_testBit_eq fun i => ?_
  rw [Nat.testBit_mod_two_pow]
  by_cases hi : i < bpp
  · rw [h i hi, decide_eq_true hi, Bool.true_and]
  · have hlt := (decPix_lt_two_pow f bpp tile y x).trans_le (Nat.pow_le_pow_right two_pos (not_lt.1 hi))
    rw [Nat.testBit_lt_two_pow hlt, decide_eq_false hi, Bool.false_and]

end decode

/-- A tile is fixed by its pixels: every bit of every byte is a bit of one of them. -/
theorem tile_eq_of_decPix {f : Format} {bpp : Nat} {t tile : List Byte} (hlegal : legalPair f bpp = true)
    (ht : t.length = bpp * 8) (htile : tile.length = bpp * 8)
    (h : ∀ y x, y < 8 → x < 8 → decPix f bpp t y x = decPix f bpp tile y x) : t = tile := by
  refine List.ext_getElem (ht.trans htile.symm) fun o ho ho' => BitVec.eq_of_getLsbD_eq fun k hk => ?_
  obtain ⟨y, j, hy, hj, rfl⟩ := exists_rowOff_eq hlegal (ht ▸ ho)
  obtain ⟨x, i, hx, hi, rfl, rfl⟩ := exists_bitByte_bitPos hlegal hj hk
  rw [← List.getD_eq_getElem t 0, ← List.getD_eq_getElem tile 0, ← testBit_decPix hi, ← testBit_decPix hi, h y x hy hx]

/-! ### The encoded row (R128) -/

/-- A byte filled from its high bit down is the same byte filled from its low bit up. -/
theorem sum_map_shiftLeft_sub (g : Nat → Nat) :
    ((List.range 8).map fun x => g x <<< (7 - x)).sum = ((List.range 8).map fun k => g (7 - k) <<< k).sum := by
  rw [← List.sum_reverse, ← List.map_reverse]
  rfl

theorem encGba_eight (p : List Nat) :
    encGba 8 p = (List.range 8).map fun j => BitVec.ofNat 8 (p.getD j 0 % 2 ^ 8) := by
  have hpixels : ∀ j < 8, ((List.range 8).filter fun x => x * 8 / 8 == j) = [j] := by decide
  refine List.map_congr_left fun j hj => ?_
  rw [hpixels j (List.mem_range.1 hj), List.map_singleton, List.sum_singleton, and_mask_eq_mod, Nat.mul_mod_left]
  rfl

theorem encGba_four (p : List Nat) :
    encGba 4 p =
      (List.range 4).map fun j =>
        BitVec.ofNat 8 (p.getD (2 * j) 0 % 2 ^ 4 + 2 ^ 4 * (p.getD (2 * j + 1) 0 % 2 ^ 4)) := by
  have hpixels : ∀ j < 4, ((List.range 8).filter fun x => x * 4 / 8 == j) = [2 * j, 2 * j + 1] := by decide
  refine List.map_congr_left fun j hj => ?_
  have heven : 2 * j * 4 % 8 = 0 := by omega
  have hodd : (2 * j + 1) * 4 % 8 = 4 := by omega
  rw [hpixels j (List.mem_range.1 hj), List.map_cons, List.map_singleton, List.sum_cons, List.sum_singleton, heven,
    hodd, and_mask_eq_mod, and_mask_eq_mod, Nat.shiftLeft_zero, Nat.shiftLeft_eq, mul_comm (_ % _)]
  rfl

theorem length_encRow (f : Format) (bpp : Nat) (p : List Nat) : (encRow f bpp p).length = bpp := by
  cases f <;> simp [encRow, encPlanes, encGba]

theorem getLsbD_encPlanes {bpp i x : Nat} (p : List Nat) (hi : i < bpp) (hx : x < 8) :
    ((encPlanes bpp p).getD i 0).getLsbD (7 - x) = (p.getD x 0).testBit i := by
  have hk : 7 - x < 8 := by omega
  have hxx : 7 - (7 - x) = x := by omega
  rw [encPlanes, List.getD_eq_getElem _ _ (by simpa using hi), List.getElem_map, List.getElem_range,
    sum_map_shiftLeft_sub, BitVec.getLsbD_ofNat, testBit_sum_bits _ (fun _ => bitAt_le_one _ _), testBit_bitAt, hxx,
    and_mask_eq_mod, Nat.testBit_mod_two_pow]
  simp [hk, hi, readIndex]

/-- Each bit of an index below the bit depth stands at its place in the encoded row; higher bits are dropped (R136). -/
theorem getLsbD_encRow {f : Format} {bpp x i : Nat} (p : List Nat) (hlegal : legalPair f bpp = true) (hx : x < 8)
    (hi : i < bpp) :
    ((encRow f bpp p).getD (bitByte f bpp x i) 0).getLsbD (bitPos f bpp x i) = (p.getD x 0).testBit i := by
  cases f with
  | planar | interwined => exact getLsbD_encPlanes p hi hx
  | gba =>
    obtain rfl | rfl := (legalPair_gba_iff bpp).1 hlegal
    · have hbyte : bitByte .gba 4 x i = x / 2 := by simp only [bitByte]; omega
      have hpos : bitPos .gba 4 x i = x % 2 * 4 + i := by simp only [bitPos]; omega
      rw [hbyte, hpos, encRow, encGba_four, List.getD_eq_getElem _ _ (by simp; omega), List.getElem_map,
        List.getElem_range, BitVec.getLsbD_ofNat, decide_eq_true (by omega), Bool.true_and]
      obtain heven | hodd := Nat.mod_two_eq_zero_or_one x
      · have hpixel : 2 * (x / 2) = x := by omega
        rw [heven, hpixel, zero_mul, zero_add]
        exact (testBit_nibbles _ _ hi).1
      · have hpixel : 2 * (x / 2) + 1 = x := by omega
        rw [hodd, hpixel, one_mul]
        exact (testBit_nibbles _ _ hi).2
    · have hbyte : bitByte .gba 8 x i = x := by simp only [bitByte]; omega
      have hpos : bitPos .gba 8 x i = i := by simp only [bitPos]; omega
      rw [hbyte, hpos, encRow, encGba_eight, List.getD_eq_getElem _ _ (by simpa using hx), List.getElem_map,
        List.getElem_range, BitVec.getLsbD_ofNat, Nat.testBit_mod_two_pow, decide_eq_true hi, Bool.true_and,
        Bool.true_and]

/-- A row of the tile that holds an encoded row decodes to the low bits of its indices. -/
theorem decPix_of_encRow {f : Format} {bpp y x : Nat} {tile : List Byte} {p : List Nat}
    (hlegal : legalPair f bpp = true) (hx : x < 8)
    (h : ∀ j < bpp, tile.getD (rowOff f bpp y j) 0 = (encRow f bpp p).getD j 0) :
    decPix f bpp tile y x = p.getD x 0 % 2 ^ bpp := by
  refine decPix_eq_mod_iff.2 fun i hi => ?_
  rw [testBit_decPix hi, h _ (bitByte_lt hlegal hx hi), getLsbD_encRow p hlegal hx hi]

/-! ### The encoded tile (R135) -/

/-- Of several writes to a list the value at a position they agree on is the written one. -/
theorem getD_foldl_set {ws : List (Nat × Byte)} {t : List Byte} {o : Nat} {b : Byte} (ho : o < t.length)
    (hagree : ∀ w ∈ ws, w.1 = o → w.2 = b) (hb : t.getD o 0 = b ∨ (o, b) ∈ ws) :
    (ws.foldl (fun t w => t.set w.1 w.2) t).getD o 0 = b := by
  induction ws generalizing t with
  | nil => exact hb.resolve_right List.not_mem_nil
  | cons w ws ih =>
    refine ih (by rwa [List.length_set]) (fun v hv => hagree v (List.mem_cons_of_mem w hv)) ?_
    by_cases hw : w.1 = o
    · left
      simp [hw, ho, hagree w List.mem_cons_self hw]
    · obtain hb | hb := hb
      · left
        rwa [List.getD_eq_getElem?_getD, List.getElem?_set_ne hw, ← List.getD_eq_getElem?_getD]
      · exact .inr ((List.mem_cons.1 hb).resolve_left (by rintro rfl; exact hw rfl))

theorem length_foldl_set (ws : List (Nat × Byte)) (t : List Byte) :
    (ws.foldl (fun t w => t.set w.1 w.2) t).length = t.length := by
  induction ws generalizing t with
  | nil => rfl
  | cons w ws ih => exact (ih _).trans List.length_set

theorem mem_tileWrites_iff {f : Format} {bpp : Nat} {tpix : List Nat} {w : Nat × Byte} :
    w ∈ tileWrites f bpp tpix ↔
      ∃ y j, y < 8 ∧ j < bpp ∧
        w = (rowOff f bpp y j, (encRow f bpp ((tpix.drop (8 * y)).take 8)).getD j 0) := by
  simp only [tileWrites, List.mem_flatMap, List.mem_map, List.mem_range]
  constructor
  · rintro ⟨y, hy, j, hj, rfl⟩; exact ⟨y, j, hy, hj, rfl⟩
  · rintro ⟨y, j, hy, hj, rfl⟩; exact ⟨y, hy, j, hj, rfl⟩

section encode

variable {f : Format} {bpp y x j : Nat}

theorem length_encTile (f : Format) (bpp : Nat) (tpix : List Nat) : (encTile f bpp tpix).length = bpp * 8 :=
  (length_foldl_set _ _).trans List.length_replicate

/-- Every byte of the encoded rows stands at its offset: no other write reaches it. -/
theorem getD_encTile (hlegal : legalPair f bpp = true) (hy : y < 8) (hj : j < bpp) (tpix : List Nat) :
    (encTile f bpp tpix).getD (rowOff f bpp y j) 0 = (encRow f bpp ((tpix.drop (8 * y)).take 8)).getD j 0 := by
  refine getD_foldl_set (by rw [List.length_replicate]; exact rowOff_lt hlegal hy hj) (fun w hw hoff => ?_)
    (.inr (mem_tileWrites_iff.2 ⟨y, j, hy, hj, rfl⟩))
  obtain ⟨y', j', hy', hj', rfl⟩ := mem_tileWrites_iff.1 hw
  obtain ⟨rfl, rfl⟩ := (rowOff_inj hlegal hy hj hy' hj').1 hoff
  rfl

theorem decPix_encTile (hlegal : legalPair f bpp = true) (hy : y < 8) (hx : x < 8) (tpix : List Nat) :
    decPix f bpp (encTile f bpp tpix) y x = tpix.getD (8 * y + x) 0 % 2 ^ bpp := by
  rw [decPix_of_encRow hlegal hx fun j hj => getD_encTile hlegal hy hj tpix]
  simp [List.getElem?_take_of_lt hx]

end encode

/-! ### The decoded row and tile (R132, R134) -/

section decoded

variable {f : Format} {bpp y x : Nat} {tile : List Byte} {p : List Nat}

/-- A row is decoded to given indices when each of its pixels is. -/
theorem decRow_eq_map_mod (hp : p.length = 8) (h : ∀ x < 8, decPix f bpp tile y x = p.getD x 0 % 2 ^ bpp) :
    decRow f bpp tile y = p.map (· % 2 ^ bpp) := by
  refine List.ext_getElem (by simp [decRow, hp]) fun x hx hx' => ?_
  have hx8 : x < 8 := by simpa [decRow] using hx
  simp only [decRow, List.getElem_map, List.getElem_range, h x hx8]
  rw [List.getD_eq_getElem]

/-- The pixels of a tile by their places in row-major order. -/
theorem decTile_eq_map (f : Format) (bpp : Nat) (tile : List Byte) :
    decTile f bpp tile = (List.range 64).map fun k => decPix f bpp tile (k / 8) (k % 8) := rfl

theorem length_decTile (f : Format) (bpp : Nat) (tile : List Byte) : (decTile f bpp tile).length = 64 := by
  rw [decTile_eq_map, List.length_map, List.length_range]

theorem getD_decTile (f : Format) (bpp : Nat) (tile : List Byte) (hy : y < 8) (hx : x < 8) :
    (decTile f bpp tile).getD (8 * y + x) 0 = decPix f bpp tile y x := by
  have hk : 8 * y + x < 64 := by omega
  have hrow : (8 * y + x) / 8 = y := by omega
  have hcol : (8 * y + x) % 8 = x := by omega
  rw [List.getD_eq_getElem _ _ (by rwa [length_decTile])]
  simp only [decTile_eq_map, List.getElem_map, List.getElem_range, hrow, hcol]

theorem lt_two_pow_of_mem_decTile {i : Nat} (h : i ∈ decTile f bpp tile) : i < 2 ^ bpp := by
  rw [decTile_eq_map] at h
  obtain ⟨k, -, rfl⟩ := List.mem_map.1 h
  exact decPix_lt_two_pow ..

end decoded

/-- Encoding a decoded tile gives the tile back: the two have the same pixels (R137). -/
theorem encTile_decTile {f : Format} {bpp : Nat} {tile : List Byte} (hlegal : legalPair f bpp = true)
    (hlen : tile.length = bpp * 8) : encTile f bpp (decTile f bpp tile) = tile := by
  refine tile_eq_of_decPix hlegal (length_encTile ..) hlen fun y x hy hx => ?_
  rw [decPix_encTile hlegal hy hx, getD_decTile f bpp tile hy hx, Nat.mod_eq_of_lt (decPix_lt_two_pow ..)]

theorem decTile_encTile {f : Format} {bpp : Nat} {tpix : List Nat} (hlegal : legalPair f bpp = true)
    (hlen : tpix.length = 64) : decTile f bpp (encTile f bpp tpix) = tpix.map (· % 2 ^ bpp) := by
  refine List.ext_getElem (by rw [length_decTile, List.length_map, hlen]) fun k hk hk' => ?_
  rw [length_decTile] at hk
  simp only [decTile_eq_map, List.getElem_map, List.getElem_range]
  rw [decPix_encTile hlegal (by omega) (by omega), Nat.div_add_mod, List.getD_eq_getElem]

/-! ### The tile with one pixel put (R131) -/

/-- SETBIT8 is SETBITS8 of one bit. -/
theorem setByteBit_eq_setByteBits (tile : List Byte) (o bit b : Nat) :
    setByteBit tile o bit b = setByteBits tile o bit 1 b := rfl

/-- SETBITS8 changes the bits of one field of one byte. -/
theorem getLsbD_setByteBits {tile : List Byte} {o : Nat} (ho : o < tile.length) (start n v a : Nat) {k : Nat}
    (hk : k < 8) :
    ((setByteBits tile o start n v).getD a 0).getLsbD k =
      if a = o ∧ start ≤ k ∧ k < start + n then v.testBit (k - start) else (tile.getD a 0).getLsbD k := by
  by_cases ha : a = o
  · subst ha
    have hset : (setByteBits tile a start n v).getD a 0 = BitVec.ofNat 8 (setBits 8 (readByte tile a) start n v) := by
      simp [setByteBits, ho]
    rw [hset, BitVec.getLsbD_ofNat, testBit_setBits, testBit_readByte]
    simp only [hk, decide_true, Bool.true_and, true_and]
  · simp [setByteBits, ha, Ne.symm ha]

/-- PIXENC's first `n` writes on the bit-plane layouts (R131). -/
def putFirstPlanes (f : Format) (bpp n : Nat) (tile : List Byte) (y x v : Nat) : List Byte :=
  (List.range n).foldl (fun t i => setByteBit t (rowOff f bpp y i) (7 - x) (bitAt (v &&& mask bpp) i)) tile

section put

variable {f : Format} {bpp y x : Nat} {tile : List Byte}

theorem putPlanes_eq_putFirstPlanes (f : Format) (bpp : Nat) (tile : List Byte) (y x v : Nat) :
    putPlanes f bpp tile y x v = putFirstPlanes f bpp bpp tile y x v := rfl

theorem putFirstPlanes_succ (f : Format) (bpp n : Nat) (tile : List Byte) (y x v : Nat) :
    putFirstPlanes f bpp (n + 1) tile y x v =
      setByteBits (putFirstPlanes f bpp n tile y x v) (rowOff f bpp y n) (7 - x) 1 (bitAt (v &&& mask bpp) n) := by
  rw [putFirstPlanes, List.range_succ, List.foldl_append, ← setByteBit_eq_setByteBits]
  rfl

theorem length_putFirstPlanes (f : Format) (bpp n : Nat) (tile : List Byte) (y x v : Nat) :
    (putFirstPlanes f bpp n tile y x v).length = tile.length := by
  induction n with
  | zero => rfl
  | succ n ih => rw [putFirstPlanes_succ, setByteBits, List.length_set, ih]

theorem testBit_and_mask (v : Nat) {n i : Nat} (hi : i < n) : (v &&& mask n).testBit i = v.testBit i := by
  simp [hi]

/-- Each plane's write reaches the byte of its plane in row `y`, and there the bit of column `x`. -/
theorem getLsbD_putFirstPlanes {n y' j k : Nat} (hlegal : legalPair f bpp = true) (hlen : tile.length = bpp * 8)
    (hn : n ≤ bpp) (hy : y < 8) (v : Nat) (hy' : y' < 8) (hj : j < bpp) (hk : k < 8) :
    ((putFirstPlanes f bpp n tile y x v).getD (rowOff f bpp y' j) 0).getLsbD k =
      if y' = y ∧ j < n ∧ k = 7 - x then v.testBit j else (tile.getD (rowOff f bpp y' j) 0).getLsbD k := by
  induction n with
  | zero => simp [putFirstPlanes]
  | succ n ih =>
    have hoff : rowOff f bpp y n < (putFirstPlanes f bpp n tile y x v).length := by
      rw [length_putFirstPlanes, hlen]
      exact rowOff_lt hlegal hy hn
    have hbit : (7 - x ≤ k ∧ k < 7 - x + 1) ↔ k = 7 - x := by omega
    rw [putFirstPlanes_succ, getLsbD_setByteBits hoff _ _ _ _ hk, ih (Nat.le_of_succ_le hn)]
    simp only [rowOff_inj hlegal hy hn hy' hj, hbit]
    by_cases hwrite : (y' = y ∧ j = n) ∧ k = 7 - x
    · obtain ⟨⟨rfl, rfl⟩, rfl⟩ := hwrite
      rw [if_pos ⟨⟨rfl, rfl⟩, rfl⟩, if_pos ⟨rfl, Nat.lt_succ_self _, rfl⟩, Nat.sub_self, testBit_bitAt,
        testBit_and_mask v hn]
    · rw [if_neg hwrite]
      exact if_congr (by omega) rfl rfl

theorem length_putPix (f : Format) (bpp : Nat) (tile : List Byte) (y x v : Nat) :
    (putPix f bpp tile y x v).length = tile.length := by
  cases f with
  | planar | interwined => rw [putPix, putPlanes_eq_putFirstPlanes, length_putFirstPlanes]
  | gba => exact List.length_set

/-- PIXENC writes the bits of one pixel and leaves those of every other as they are. -/
theorem getLsbD_putPix {y' x' i : Nat} (hlegal : legalPair f bpp = true) (hlen : tile.length = bpp * 8) (hy : y < 8)
    (hx : x < 8) (v : Nat) (hy' : y' < 8) (hx' : x' < 8) (hi : i < bpp) :
    ((putPix f bpp tile y x v).getD (rowOff f bpp y' (bitByte f bpp x' i)) 0).getLsbD (bitPos f bpp x' i) =
      if y' = y ∧ x' = x then v.testBit i
      else (tile.getD (rowOff f bpp y' (bitByte f bpp x' i)) 0).getLsbD (bitPos f bpp x' i) := by
  have hk : bitPos f bpp x' i < 8 := bitPos_lt hlegal hi
  cases f with
  | planar | interwined =>
    rw [putPix, putPlanes_eq_putFirstPlanes, bitByte, getLsbD_putFirstPlanes hlegal hlen le_rfl hy v hy' hi hk]
    refine if_congr ?_ rfl rfl
    simp only [bitPos]
    omega
  | gba =>
    have hbyte : x * bpp / 8 < bpp := bitByte_lt (i := i) hlegal hx hi
    have hbyte' : x' * bpp / 8 < bpp := bitByte_lt (i := i) hlegal hx' hi
    have hoff : rowOff .gba bpp y (x * bpp / 8) < tile.length := hlen ▸ rowOff_lt hlegal hy hbyte
    refine (getLsbD_setByteBits hoff _ _ _ _ hk).trans ?_
    simp only [bitByte, rowOff_inj hlegal hy hbyte hy' hbyte', bitPos]
    by_cases hsame : y' = y ∧ x' = x
    · obtain ⟨rfl, rfl⟩ := hsame
      rw [if_pos (by omega), if_pos ⟨rfl, rfl⟩, Nat.add_sub_cancel_left, testBit_and_mask v hi]
    · refine (if_neg ?_).trans (if_neg hsame).symm
      obtain rfl | rfl := (legalPair_gba_iff bpp).1 hlegal <;> omega

/-- After PIXENC one pixel decodes to the low bits of the value and every other as before. -/
theorem decPix_putPix {y' x' : Nat} (hlegal : legalPair f bpp = true) (hlen : tile.length = bpp * 8) (hy : y < 8)
    (hx : x < 8) (v : Nat) (hy' : y' < 8) (hx' : x' < 8) :
    decPix f bpp (putPix f bpp tile y x v) y' x' =
      if y' = y ∧ x' = x then v % 2 ^ bpp else decPix f bpp tile y' x' := by
  have hmod : decPix f bpp (putPix f bpp tile y x v) y' x' =
      (if y' = y ∧ x' = x then v else decPix f bpp tile y' x') % 2 ^ bpp := by
    refine decPix_eq_mod_iff.2 fun i hi => ?_
    rw [testBit_decPix hi, getLsbD_putPix hlegal hlen hy hx v hy' hx' hi, apply_ite (Nat.testBit · i),
      testBit_decPix hi]
  rw [hmod, apply_ite (· % 2 ^ bpp), Nat.mod_eq_of_lt (decPix_lt_two_pow ..)]

/-- Putting a pixel's own value back gives the tile back: every pixel is as before (R137). -/
theorem putPix_decPix (hlegal : legalPair f bpp = true) (hlen : tile.length = bpp * 8) (hy : y < 8) (hx : x < 8) :
    putPix f bpp tile y x (decPix f bpp tile y x) = tile := by
  refine tile_eq_of_decPix hlegal ((length_putPix ..).trans hlen) hlen fun y' x' hy' hx' => ?_
  rw [decPix_putPix hlegal hlen hy hx _ hy' hx', Nat.mod_eq_of_lt (decPix_lt_two_pow ..)]
  split
  next h => rw [h.1, h.2]
  next => rfl

end put

/-! ### The laws of the codec (R137) -/

/-- Settles O39, by the two round trips. -/
theorem tileCodecRoundTrips : Obligations.TileCodecRoundTrips :=
  fun _ _ hlegal => ⟨fun _ => encTile_decTile hlegal, fun _ => decTile_encTile hlegal⟩

/-- Settles O40: a row of the tile is decoded pixel by pixel, and a tile is fixed by its pixels. -/
theorem rowAndPixelLaws : Obligations.RowAndPixelLaws := by
  intro f bpp tile y hlegal hlen hy
  refine ⟨fun row hrow hbytes => decRow_eq_map_mod hrow fun x hx => decPix_of_encRow hlegal hx hbytes,
    fun x v hx => ⟨?_, putPix_decPix hlegal hlen hy hx⟩, ?_, rfl⟩
  · rw [decPix_putPix hlegal hlen hy hx v hy hx, if_pos ⟨rfl, rfl⟩]
  · exact (rowOff_interwined_last (Nat.zero_le 0) y).trans (Nat.zero_add y)

/-! ### The commands (R130 to R135) -/

section exec

variable {f : Format} {bpp y x v : Nat} {tile : List Byte} {l : List Nat} {s : State}

theorem tileShape_of_length (h : tile.length = bpp * 8) : tileShape bpp tile = true := beq_iff_eq.2 h

theorem tileRowShape_of_lt (h : tile.length = bpp * 8) (hy : y < 8) : (tileShape bpp tile && coordShape y) = true :=
  Bool.and_eq_true_iff.2 ⟨tileShape_of_length h, decide_eq_true hy⟩

theorem tilePixelShape_of_lt (h : tile.length = bpp * 8) (hy : y < 8) (hx : x < 8) :
    (tileShape bpp tile && coordShape y && coordShape x) = true :=
  Bool.and_eq_true_iff.2 ⟨tileRowShape_of_lt h hy, decide_eq_true hx⟩

/-- With a legal configuration and a record of its shape a command of the codec starts with its one element. -/
theorem exec_of_shaped {i : Instr} {r : Record} {k : Format → ExecResult} {shape : Bool} {e : Element}
    (hready : Ready s) (hops : s.port.ops = r) (hlegal : legalPair f bpp = true) (hshape : shape = true)
    (hres : commandResult i s.params r = withConfig (formatCode f) bpp k) (hk : k f = ifShaped shape (.ok [e])) :
    exec i s = .next (startedWith [e] s) :=
  have hok : commandResult i s.params r = .ok [e] := by
    rw [hres, withConfig_of_legal hlegal, hk, ifShaped_of_eq_true hshape]
  exec_of_ok hready hops hok (List.cons_ne_nil _ _)

theorem exec_pixdec (hready : Ready s) (hops : s.port.ops = .tileYX tile y x) (hlegal : legalPair f bpp = true)
    (hlen : tile.length = bpp * 8) (hy : y < 8) (hx : x < 8) :
    exec (.pixdec (formatCode f) bpp) s = .next (startedWith [.index (decPix f bpp tile y x)] s) :=
  exec_of_shaped hready hops hlegal (tilePixelShape_of_lt hlen hy hx) rfl rfl

theorem exec_pixenc (hready : Ready s) (hops : s.port.ops = .tileYXV tile y x v) (hlegal : legalPair f bpp = true)
    (hlen : tile.length = bpp * 8) (hy : y < 8) (hx : x < 8) :
    exec (.pixenc (formatCode f) bpp) s = .next (startedWith [.bytes (putPix f bpp tile y x v)] s) :=
  exec_of_shaped hready hops hlegal (tilePixelShape_of_lt hlen hy hx) rfl rfl

theorem exec_rowdec (hready : Ready s) (hops : s.port.ops = .tileY tile y) (hlegal : legalPair f bpp = true)
    (hlen : tile.length = bpp * 8) (hy : y < 8) :
    exec (.rowdec (formatCode f) bpp) s = .next (startedWith [.indices (decRow f bpp tile y)] s) :=
  exec_of_shaped hready hops hlegal (tileRowShape_of_lt hlen hy) rfl rfl

theorem exec_rowenc (hready : Ready s) (hops : s.port.ops = .row l) (hlegal : legalPair f bpp = true)
    (hlen : l.length = 8) :
    exec (.rowenc (formatCode f) bpp) s = .next (startedWith [.bytes (encRow f bpp l)] s) :=
  exec_of_shaped hready hops hlegal (beq_iff_eq.2 hlen) rfl rfl

theorem exec_tiledec (hready : Ready s) (hops : s.port.ops = .tile tile) (hlegal : legalPair f bpp = true)
    (hlen : tile.length = bpp * 8) :
    exec (.tiledec (formatCode f) bpp) s = .next (startedWith [.indices (decTile f bpp tile)] s) :=
  exec_of_shaped hready hops hlegal (tileShape_of_length hlen) rfl rfl

theorem exec_tileenc (hready : Ready s) (hops : s.port.ops = .tpix l) (hlegal : legalPair f bpp = true)
    (hlen : l.length = 64) :
    exec (.tileenc (formatCode f) bpp) s = .next (startedWith [.bytes (encTile f bpp l)] s) :=
  exec_of_shaped hready hops hlegal (beq_iff_eq.2 hlen) rfl rfl

end exec

/-- Settles O30: plane `i` of row `y` is the byte at `y + 8i`. -/
theorem pixdecReadsPlanarPlanes : Obligations.PixdecReadsPlanarPlanes := by
  intro bpp y x tile s hready hops hmin hmax hlen hy hx
  have hlegal : legalPair .planar bpp = true := (legalPair_iff_of_ne_gba (by decide) bpp).2 ⟨hmin, hmax⟩
  exact ⟨_, exec_pixdec hready hops hlegal hlen hy hx, decPix_lt_two_pow .., fun i hi => testBit_decPix hi⟩

/-- Settles O31: the planes of a pair stand side by side, and an odd last plane has no partner. -/
theorem pixdecReadsInterwinedPairs : Obligations.PixdecReadsInterwinedPairs := by
  intro bpp y x tile s hready hops hmin hmax hlen hy hx
  have hlegal : legalPair .interwined bpp = true := (legalPair_iff_of_ne_gba (by decide) bpp).2 ⟨hmin, hmax⟩
  have hplane : ∀ {i o}, i < bpp → rowOff .interwined bpp y i = o →
      (decPix .interwined bpp tile y x).testBit i = (tile.getD o 0).getLsbD (7 - x) := by
    rintro i o hi rfl
    exact testBit_decPix hi
  refine ⟨_, exec_pixdec hready hops hlegal hlen hy hx, decPix_lt_two_pow .., fun p hp => ⟨?_, ?_⟩, fun hodd => ?_⟩
  · exact hplane (by omega) ((rowOff_interwined_pair (by omega) y).trans (by omega))
  · exact hplane (by omega) ((rowOff_interwined_pair (by omega) y).trans (by omega))
  · exact hplane (by omega) (rowOff_interwined_last (by omega) y)

theorem decPix_gba_eight (tile : List Byte) (y x : Nat) :
    decPix .gba 8 tile y x = (tile.getD (8 * y + x) 0).toNat := by
  have hbyte : x * 8 / 8 = x := by omega
  have hpos : x * 8 % 8 = 0 := by omega
  rw [decPix, decGba, hbyte, hpos, getBits_eq_div_mod, pow_zero, Nat.div_one, readByte,
    Nat.mod_eq_of_lt (BitVec.isLt _)]
  rfl

theorem decPix_gba_four (tile : List Byte) (y x : Nat) :
    decPix .gba 4 tile y x =
      if x % 2 = 0 then (tile.getD (4 * y + x / 2) 0).toNat % 16 else (tile.getD (4 * y + x / 2) 0).toNat / 16 := by
  have hbyte : x * 4 / 8 = x / 2 := by omega
  rw [decPix, decGba, hbyte, getBits_eq_div_mod, readByte]
  split
  next heven =>
    have hpos : x * 4 % 8 = 0 := by omega
    rw [hpos, pow_zero, Nat.div_one]
    rfl
  next hodd =>
    have hpos : x * 4 % 8 = 4 := by omega
    rw [hpos, Nat.mod_eq_of_lt (Nat.div_lt_of_lt_mul (BitVec.isLt _))]
    rfl

/-- Settles O32: at 8bpp a pixel is a byte, at 4bpp a nibble. -/
theorem pixdecReadsGbaPixels : Obligations.PixdecReadsGbaPixels := by
  intro y x tile s hready hops hy hx
  refine ⟨fun hlen => ?_, fun hlen => ?_⟩
  · exact decPix_gba_eight tile y x ▸ exec_pixdec hready hops ((legalPair_gba_iff 8).2 (.inr rfl)) hlen hy hx
  · exact decPix_gba_four tile y x ▸ exec_pixdec hready hops ((legalPair_gba_iff 4).2 (.inl rfl)) hlen hy hx

/-- Settles O33: the emitted tile decodes to the value at the pixel and as before elsewhere. -/
theorem pixencChangesOnePixel : Obligations.PixencChangesOnePixel := by
  intro f bpp y x v tile s hready hops hlegal hlen hy hx
  exact ⟨_, exec_pixenc hready hops hlegal hlen hy hx, (length_putPix ..).trans hlen,
    fun y' x' hy' hx' => decPix_putPix hlegal hlen hy hx v hy' hx'⟩

/-- Settles O34: a row's columns are 0 to 7. -/
theorem rowdecEmitsEightIndices : Obligations.RowdecEmitsEightIndices :=
  fun _ _ _ _ _ hready hops hlegal hlen hy => exec_rowdec hready hops hlegal hlen hy

/-- Settles O35: on the bit-plane layouts byte `i` of an encoded row is plane `i`. -/
theorem rowencBuildsPlaneBytes : Obligations.RowencBuildsPlaneBytes := by
  intro f bpp row s hready hops hf hlegal hlen
  refine ⟨_, exec_rowenc hready hops hlegal hlen, length_encRow .., fun i x hi hx => ?_⟩
  cases f with
  | planar | interwined => exact getLsbD_encPlanes row hi hx
  | gba => exact absurd rfl hf

/-- Settles O36: at 8bpp a byte holds one index, at 4bpp two. -/
theorem rowencPacksGbaRows : Obligations.RowencPacksGbaRows := by
  intro p0 p1 p2 p3 p4 p5 p6 p7 s hready hops
  have hrow : ∀ {bpp}, legalPair .gba bpp = true → exec (.rowenc .gba bpp) s =
      .next (startedWith [.bytes (encGba bpp [p0, p1, p2, p3, p4, p5, p6, p7])] s) :=
    fun hlegal => exec_rowenc hready hops hlegal rfl
  refine ⟨(hrow ((legalPair_gba_iff 8).2 (.inr rfl))).trans ?_, (hrow ((legalPair_gba_iff 4).2 (.inl rfl))).trans ?_⟩
  · rw [encGba_eight]; rfl
  · rw [encGba_four]; rfl

/-- Settles O37: no record of the right length is refused, and the decoder is total. -/
theorem tiledecEmitsRowMajorIndices : Obligations.TiledecEmitsRowMajorIndices := by
  intro f bpp tile s hready hops hlegal hlen
  exact ⟨_, exec_tiledec hready hops hlegal hlen, length_decTile .., fun _ => lt_two_pow_of_mem_decTile,
    fun y x => getD_decTile f bpp tile⟩

/-- Settles O38: the writes of the encoded rows do not overlap. -/
theorem tileencPlacesEveryRow : Obligations.TileencPlacesEveryRow := by
  intro f bpp tpix s hready hops hlegal hlen
  exact ⟨_, exec_tileenc hready hops hlegal hlen, length_encTile .., fun y j hy hj => getD_encTile hlegal hy hj tpix,
    fun y x hy hx => decPix_encTile hlegal hy hx tpix⟩

end Sys2Proof.Machine

/-! The tile grid (42_tile_grid.md): the sheet shows tile `k` of the stream, or a tile of zeros, at tile row `k / 16` and
tile column `k % 16`. SHEETDEC and SHEETENC are the tile codec on each tile, so their laws are those of the codec. -/

namespace Sys2Proof.Machine

/-! ### Lists of equal pieces -/

section pieces

variable {α : Type}

/-- Rows of `m` entries one after another are one list, whose entry `k` is entry `k % m` of row `k / m`. -/
theorem flatMap_range_map (n m : Nat) (g : Nat → Nat → α) :
    ((List.range n).flatMap fun i => (List.range m).map (g i)) = (List.range (n * m)).map fun k => g (k / m) (k % m) := by
  induction n with
  | zero => simp
  | succ n ih =>
    rw [List.range_succ, List.flatMap_append, List.flatMap_singleton, ih, Nat.succ_mul, List.range_add, List.map_append,
      List.map_map]
    congr 1
    refine List.map_congr_left fun j hj => ?_
    have hj : j < m := List.mem_range.1 hj
    have hrow : (n * m + j) / m = n := Nat.div_eq_of_lt_le (by omega) (by rw [Nat.succ_mul]; omega)
    have hcol : (n * m + j) % m = j := by rw [mul_comm, Nat.mul_add_mod, Nat.mod_eq_of_lt hj]
    simp only [Function.comp_apply, hrow, hcol]

theorem getD_map_range (g : Nat → α) (d : α) {n i : Nat} (h : i < n) : ((List.range n).map g).getD i d = g i := by
  simp [h]

theorem length_flatMap_range {g : Nat → List α} {b : Nat} (hg : ∀ i, (g i).length = b) (n : Nat) :
    ((List.range n).flatMap g).length = n * b := by
  simp [List.length_flatMap, hg]

/-- Piece `k` of the concatenation of pieces of `b` entries stands at `k * b`. -/
theorem take_drop_flatMap_range {g : Nat → List α} {b n k : Nat} (hg : ∀ i, (g i).length = b) (hk : k < n) :
    (((List.range n).flatMap g).drop (k * b)).take b = g k := by
  obtain ⟨m, rfl⟩ := Nat.exists_eq_add_of_lt hk
  rw [add_assoc, List.range_add, List.flatMap_append, List.drop_left' (length_flatMap_range hg k), List.flatMap_map,
    List.range_succ_eq_map, List.flatMap_cons]
  exact List.take_left' (hg k)

/-- The first `n` pieces of `b` entries of a list are its first `n * b` entries. -/
theorem flatMap_range_take_drop (l : List α) (b n : Nat) :
    ((List.range n).flatMap fun k => (l.drop (k * b)).take b) = l.take (n * b) := by
  induction n with
  | zero => simp
  | succ n ih => rw [List.range_succ, List.flatMap_append, List.flatMap_singleton, ih, Nat.succ_mul, List.take_add]

end pieces

/-! ### The tiles the sheet shows (R53, R161, R162) -/

/-- Tile `k` as the sheet of a stream shows it: the stream's where it holds all of it, else zeros. -/
def sheetTile (bpp : Nat) (bytes : List Byte) (k : Nat) : List Byte :=
  if (k + 1) * (bpp * 8) ≤ bytes.length then (bytes.drop (k * (bpp * 8))).take (bpp * 8)
  else List.replicate (bpp * 8) 0#8

theorem bytesPerRow_eq (bpp : Nat) : bytesPerRow bpp = bpp * 128 := Nat.mul_assoc bpp 8 16

theorem pos_of_legalPair {f : Format} {bpp : Nat} (h : legalPair f bpp = true) : 0 < bpp :=
  of_decide_eq_true (Bool.and_eq_true_iff.1 (bppInRange_of_legalPair h)).1

/-- Tile `t` of tile row `r` is counted exactly when the stream holds all of it. -/
theorem lt_numTiles_iff {bpp t : Nat} (hbpp : 0 < bpp) (ht : t < 16) (r n : Nat) :
    t < numTiles bpp r n ↔ (16 * r + t + 1) * (bpp * 8) ≤ n := by
  have hpos : 0 < bytesPerTile bpp := Nat.mul_pos hbpp (by decide)
  have hrow : (t + 1) * bytesPerTile bpp ≤ bytesPerRow bpp :=
    (Nat.mul_le_mul_right _ ht).trans_eq (mul_comm _ _)
  have hplace : (16 * r + t + 1) * (bpp * 8) = (t + 1) * bytesPerTile bpp + r * bytesPerRow bpp := by
    simp only [bytesPerRow, bytesPerTile, tileSide, tilesPerRow]
    ring
  have htile : 0 < (t + 1) * bytesPerTile bpp := Nat.mul_pos t.succ_pos hpos
  rw [numTiles, Nat.lt_iff_add_one_le, Nat.le_div_iff_mul_le hpos, availBytes, le_min_iff, hplace]
  omega

theorem streamTile_eq (bpp : Nat) (bytes : List Byte) (r t : Nat) :
    streamTile bpp bytes r t = (bytes.drop ((16 * r + t) * (bpp * 8))).take (bpp * 8) := by
  have hplace : r * bytesPerRow bpp + t * bytesPerTile bpp = (16 * r + t) * (bpp * 8) := by
    simp only [bytesPerRow, bytesPerTile, tileSide, tilesPerRow]
    ring
  rw [streamTile, slice, hplace]
  rfl

/-- A tile of zeros has only pixels 0 (R162). -/
theorem decPix_replicate_zero (f : Format) (bpp n y x : Nat) : decPix f bpp (List.replicate n 0#8) y x = 0 := by
  refine (decPix_eq_mod_iff (v := 0).2 fun i hi => ?_).trans (Nat.zero_mod _)
  simp [testBit_decPix hi, List.getElem?_replicate, apply_ite (Option.getD · 0#8)]

section sheetTile

variable {f : Format} {bpp : Nat} {bytes : List Byte}

theorem length_sheetTile (bpp : Nat) (bytes : List Byte) (k : Nat) : (sheetTile bpp bytes k).length = bpp * 8 := by
  unfold sheetTile
  split
  next hheld =>
    rw [Nat.succ_mul] at hheld
    rw [List.length_take, List.length_drop]
    omega
  next => exact List.length_replicate

/-- A pixel of a tile the sheet shows is decoded from the stream, or 0. -/
theorem decPix_sheetTile (f : Format) (bpp : Nat) (bytes : List Byte) (k y x : Nat) :
    decPix f bpp (sheetTile bpp bytes k) y x =
      if (k + 1) * (bpp * 8) ≤ bytes.length then decPix f bpp ((bytes.drop (k * (bpp * 8))).take (bpp * 8)) y x
      else 0 := by
  unfold sheetTile
  split
  · rfl
  · exact decPix_replicate_zero ..

theorem sheetTileRow_eq_decRow (hbpp : 0 < bpp) {t : Nat} (ht : t < 16) (r y : Nat) :
    sheetTileRow f bpp bytes r y t = decRow f bpp (sheetTile bpp bytes (16 * r + t)) y := by
  rw [sheetTileRow, sheetTile, streamTile_eq]
  simp only [lt_numTiles_iff hbpp ht]
  split
  · rfl
  · simp [decRow, decPix_replicate_zero, tileSide]

theorem sheetRow_eq_map (hbpp : 0 < bpp) (r y : Nat) :
    sheetRow f bpp bytes r y =
      (List.range 128).map fun c => decPix f bpp (sheetTile bpp bytes (16 * r + c / 8)) y (c % 8) :=
  (List.flatMap_congr fun _ ht => sheetTileRow_eq_decRow hbpp (List.mem_range.1 ht) r y).trans
    (flatMap_range_map 16 8 fun t x => decPix f bpp (sheetTile bpp bytes (16 * r + t)) y x)

theorem sheetRows_eq_map (f : Format) (bpp : Nat) (bytes : List Byte) :
    sheetRows f bpp bytes =
      (List.range (ceildiv bytes.length (bytesPerRow bpp) * 8)).map fun k => sheetRow f bpp bytes (k / 8) (k % 8) :=
  flatMap_range_map ..

/-- The decoded sheet, row by row, pixel by pixel. -/
theorem flatten_sheetRows (hbpp : 0 < bpp) :
    (sheetRows f bpp bytes).flatten =
      (List.range (ceildiv bytes.length (bytesPerRow bpp) * 8 * 128)).map fun p =>
        decPix f bpp (sheetTile bpp bytes (16 * (p / 128 / 8) + p % 128 / 8)) (p / 128 % 8) (p % 128 % 8) := by
  rw [sheetRows_eq_map, ← List.flatMap_def]
  simp only [sheetRow_eq_map hbpp]
  exact flatMap_range_map ..

end sheetTile

/-! ### The tiles of a grid (R52, R165, R166) -/

theorem gridTile_eq_map (grid : List Nat) (width tr tc : Nat) :
    gridTile grid width tr tc =
      (List.range 64).map fun k => grid.getD ((8 * tr + k / 8) * width + 8 * tc + k % 8) 0 := rfl

theorem getD_gridTile (grid : List Nat) (width tr tc : Nat) {y x : Nat} (hy : y < 8) (hx : x < 8) :
    (gridTile grid width tr tc).getD (8 * y + x) 0 = grid.getD ((8 * tr + y) * width + 8 * tc + x) 0 := by
  have hrow : (8 * y + x) / 8 = y := by omega
  have hcol : (8 * y + x) % 8 = x := by omega
  rw [gridTile_eq_map, getD_map_range _ _ (by omega), hrow, hcol]

/-- Tile `k` of an encoded grid is at tile row `k` div and tile column `k` mod the tiles of a tile row. -/
theorem sheetTiles_eq_map (f : Format) (bpp : Nat) (grid : List Nat) (width height : Nat) :
    sheetTiles f bpp grid width height =
      (List.range (height / 8 * (width / 8))).map fun k =>
        encTile f bpp (gridTile grid width (k / (width / 8)) (k % (width / 8))) :=
  flatMap_range_map ..

/-! ### The commands (R161, R165) -/

section exec

variable {f : Format} {bpp : Nat} {s : State}

theorem exec_sheetdec {bytes : List Byte} (hready : Ready s) (hops : s.port.ops = .bytesIn bytes)
    (hlegal : legalPair f bpp = true) (hcap : withinCap s.params.maxBytes bytes.length = true)
    (hrows : sheetRows f bpp bytes ≠ []) :
    exec (.sheetdec (formatCode f) bpp) s = .next (startedWith ((sheetRows f bpp bytes).map .indices) s) :=
  exec_of_ok hready hops ((withConfig_of_legal hlegal _).trans (ifShaped_of_eq_true hcap)) (by simpa using hrows)

theorem checkDims_eq_none {grid : List Nat} {width height : Nat} (hwidth : width % 8 = 0) (hheight : height % 8 = 0)
    (hlen : grid.length = width * height) : checkDims grid width height = none := by
  simp [checkDims, tileSide, hwidth, hheight, hlen]

theorem exec_sheetenc {grid : List Nat} {width height : Nat} (hready : Ready s)
    (hops : s.port.ops = .grid grid width height) (hlegal : legalPair f bpp = true)
    (hcap : withinCap s.params.maxElems grid.length = true) (hdims : checkDims grid width height = none)
    (htiles : sheetTiles f bpp grid width height ≠ []) :
    exec (.sheetenc (formatCode f) bpp) s =
      .next (startedWith ((sheetTiles f bpp grid width height).map .bytes) s) :=
  have hok : commandResult (.sheetenc (formatCode f) bpp) s.params (.grid grid width height) =
      .ok ((sheetTiles f bpp grid width height).map .bytes) := by
    rw [commandResult, sheetencResult, withConfig_of_legal hlegal]
    simp only [ifShaped_of_eq_true hcap, hdims]
  exec_of_ok hready hops hok (by simpa using htiles)

end exec

/-! ### Whole tile rows (R160, R163) -/

/-- The tile rows begun hold the whole stream. -/
theorem le_mul_ceildiv {b : Nat} (hb : 0 < b) (n : Nat) : n ≤ b * ceildiv n b := le_smul_ceilDiv hb

theorem ceildiv_mul_self {b : Nat} (hb : 0 < b) (r : Nat) : ceildiv (b * r) b = r := smul_ceilDiv hb r

theorem ceildiv_pos {b n : Nat} (hb : 0 < b) (hn : 0 < n) : 0 < ceildiv n b := by
  refine Nat.pos_of_ne_zero fun h => ?_
  have hle := le_mul_ceildiv hb n
  rw [h] at hle
  omega

/-- Settles O42: the sheet's rows are those of the tiles it shows. -/
theorem sheetdecEmitsPaddedRows : Obligations.SheetdecEmitsPaddedRows := by
  intro f bpp bytes s hready hops hlegal hcap hbytes
  have hbpp := pos_of_legalPair hlegal
  have hlen := length_sheetRows f bpp bytes
  have hpos : 0 < ceildiv bytes.length (bytesPerRow bpp) :=
    ceildiv_pos (by rw [bytesPerRow_eq]; omega) (List.length_pos_iff.2 hbytes)
  refine ⟨_, exec_sheetdec hready hops hlegal hcap (List.ne_nil_of_length_pos (by omega)), ?_, fun r y hrow hy => ?_⟩
  · rw [hlen, bytesPerRow_eq, ceildiv]
  · have hr : (8 * r + y) / 8 = r := by omega
    have hy : (8 * r + y) % 8 = y := by omega
    rw [sheetRows_eq_map, getD_map_range _ _ (by omega), hr, hy]
    refine ⟨length_sheetRow .., fun c hc => ?_⟩
    rw [sheetRow_eq_map hbpp, getD_map_range _ _ hc, decPix_sheetTile]

/-- Settles O43: each emitted tile is the encoded tile of the grid at its place. -/
theorem sheetencEmitsTilesInOrder : Obligations.SheetencEmitsTilesInOrder := by
  intro f bpp width height grid s hready hops hlegal hcap hwidth hheight hlen hw hh
  have htiles := sheetTiles_eq_map f bpp grid width height
  have hcount : (sheetTiles f bpp grid width height).length = (width / 8) * (height / 8) := by
    rw [htiles, List.length_map, List.length_range, mul_comm]
  have hpos : 0 < (width / 8) * (height / 8) := Nat.mul_pos (by omega) (by omega)
  refine ⟨_, exec_sheetenc hready hops hlegal hcap (checkDims_eq_none hwidth hheight hlen)
    (List.ne_nil_of_length_pos (hcount ▸ hpos)), hcount, fun k hk => ?_⟩
  rw [htiles, getD_map_range _ _ (by rwa [hcount, mul_comm] at hk)]
  refine ⟨length_encTile .., fun y x hy hx => ?_⟩
  rw [decPix_encTile hlegal hy hx, getD_gridTile _ _ _ _ hy hx]

/-! ### Encoding a decoded stream (R168 (a), (d)) -/

section encodeDecode

variable {f : Format} {bpp : Nat} {bytes : List Byte}

/-- A tile of the decoded sheet holds the decoded pixels of the tile shown there. -/
theorem gridTile_flatten_sheetRows (hbpp : 0 < bpp) {k : Nat}
    (hk : k < ceildiv bytes.length (bytesPerRow bpp) * 16) :
    gridTile (sheetRows f bpp bytes).flatten 128 (k / 16) (k % 16) = decTile f bpp (sheetTile bpp bytes k) := by
  rw [gridTile_eq_map, decTile_eq_map]
  refine List.map_congr_left fun q hq => ?_
  have hq : q < 64 := List.mem_range.1 hq
  generalize hp : (8 * (k / 16) + q / 8) * 128 + 8 * (k % 16) + q % 8 = p
  have htile : 16 * (p / 128 / 8) + p % 128 / 8 = k := by omega
  have hrow : p / 128 % 8 = q / 8 := by omega
  have hcol : p % 128 % 8 = q % 8 := by omega
  rw [flatten_sheetRows hbpp, getD_map_range _ _ (by omega), htile, hrow, hcol]

/-- Encoding the decoded sheet gives the tiles it shows. -/
theorem sheetTiles_flatten_sheetRows (hlegal : legalPair f bpp = true) :
    sheetTiles f bpp (sheetRows f bpp bytes).flatten 128 (imgHeight bytes.length bpp) =
      (List.range (ceildiv bytes.length (bytesPerRow bpp) * 16)).map (sheetTile bpp bytes) := by
  have hbpp := pos_of_legalPair hlegal
  rw [sheetTiles_eq_map, imgHeight_eq hbpp, Nat.mul_div_cancel_left _ (by decide)]
  refine List.map_congr_left fun k hk => ?_
  exact (congrArg _ (gridTile_flatten_sheetRows hbpp (List.mem_range.1 hk))).trans
    (encTile_decTile hlegal (length_sheetTile ..))

/-- The tiles the sheet shows are the stream's whole tiles, then zeros. -/
theorem flatMap_sheetTile (hbpp : 0 < bpp) {n : Nat} (hn : bytes.length / (bpp * 8) ≤ n) :
    (List.range n).flatMap (sheetTile bpp bytes) =
      bytes.take (bytes.length / (bpp * 8) * (bpp * 8)) ++
        List.replicate ((n - bytes.length / (bpp * 8)) * (bpp * 8)) 0#8 := by
  have hheld : ∀ k, (k + 1) * (bpp * 8) ≤ bytes.length ↔ k < bytes.length / (bpp * 8) :=
    fun k => (Nat.le_div_iff_mul_le (by omega)).symm
  obtain ⟨m, rfl⟩ := Nat.exists_eq_add_of_le hn
  rw [List.range_add, List.flatMap_append, List.flatMap_map, Nat.add_sub_cancel_left]
  congr 1
  · rw [← flatMap_range_take_drop]
    exact List.flatMap_congr fun k hk => if_pos ((hheld k).2 (List.mem_range.1 hk))
  · have hzero : ∀ j ∈ List.range m,
        sheetTile bpp bytes (bytes.length / (bpp * 8) + j) = List.replicate (bpp * 8) 0#8 :=
      fun j _ => if_neg (by rw [hheld]; omega)
    rw [List.flatMap_congr hzero, List.flatMap_def, List.map_const', List.length_range,
      List.flatten_replicate_replicate]

end encodeDecode

/-- Settles O46: encoding the decoded sheet gives the tiles it shows; whole tile rows leave nothing to fill. -/
theorem sheetEncodeOfDecode : Obligations.SheetEncodeOfDecode := by
  intro f bpp bytes hlegal
  have hbpp := pos_of_legalPair hlegal
  have hwhole := le_mul_ceildiv (b := bpp * 128) (by omega) bytes.length
  have hsize : bpp * 128 * ceildiv bytes.length (bpp * 128) =
      ceildiv bytes.length (bpp * 128) * 16 * (bpp * 8) := by ring
  have hcount : bytes.length / (bpp * 8) ≤ ceildiv bytes.length (bpp * 128) * 16 :=
    Nat.div_le_of_le_mul (by rwa [hsize, mul_comm] at hwhole)
  have hstream : (sheetTiles f bpp (sheetRows f bpp bytes).flatten 128 (imgHeight bytes.length bpp)).flatten =
      bytes.take (bytes.length / (bpp * 8) * (bpp * 8)) ++
        List.replicate (bpp * 128 * ceildiv bytes.length (bpp * 128) - bytes.length / (bpp * 8) * (bpp * 8)) 0#8 := by
    rw [sheetTiles_flatten_sheetRows hlegal, ← List.flatMap_def, bytesPerRow_eq, flatMap_sheetTile hbpp hcount, hsize,
      Nat.sub_mul]
  refine ⟨hstream, fun hrows => ?_⟩
  obtain ⟨r, hr⟩ := Nat.dvd_of_mod_eq_zero hrows
  have htiles : bytes.length / (bpp * 8) * (bpp * 8) = bytes.length :=
    Nat.div_mul_cancel ⟨16 * r, by rw [hr]; ring⟩
  have hfull : bpp * 128 * ceildiv bytes.length (bpp * 128) = bytes.length := by
    rw [hr, ceildiv_mul_self (by omega)]
  rw [hstream, htiles, hfull, List.take_length, Nat.sub_self, List.replicate_zero, List.append_nil]

/-! ### Decoding an encoded grid (R168 (b)) -/

section decodeEncode

variable (f : Format) (bpp : Nat) (grid : List Nat) (width height : Nat)

/-- The encoded grid as one stream of tiles. -/
theorem flatten_sheetTiles :
    (sheetTiles f bpp grid width height).flatten =
      (List.range (height / 8 * (width / 8))).flatMap fun k =>
        encTile f bpp (gridTile grid width (k / (width / 8)) (k % (width / 8))) := by
  rw [sheetTiles_eq_map, List.flatMap_def]

theorem length_flatten_sheetTiles :
    (sheetTiles f bpp grid width height).flatten.length = height / 8 * (width / 8) * (bpp * 8) := by
  rw [flatten_sheetTiles]
  exact length_flatMap_range (fun k => length_encTile ..) _

/-- The sheet of an encoded grid shows each of its tiles. -/
theorem sheetTile_flatten_sheetTiles {k : Nat} (hk : k < height / 8 * (width / 8)) :
    sheetTile bpp (sheetTiles f bpp grid width height).flatten k =
      encTile f bpp (gridTile grid width (k / (width / 8)) (k % (width / 8))) := by
  have hheld : (k + 1) * (bpp * 8) ≤ (sheetTiles f bpp grid width height).flatten.length :=
    (Nat.mul_le_mul_right _ hk).trans_eq (length_flatten_sheetTiles ..).symm
  rw [sheetTile, if_pos hheld, flatten_sheetTiles]
  exact take_drop_flatMap_range (fun i => length_encTile ..) hk

end decodeEncode

/-- Settles O47: pixel `p` of the sheet is decoded from the encoded tile that holds entry `p` of the grid. -/
theorem sheetDecodeOfEncode : Obligations.SheetDecodeOfEncode := by
  intro f bpp height grid hlegal hheight hlen hgrid
  have hbpp := pos_of_legalPair hlegal
  have hrows : ceildiv (sheetTiles f bpp grid 128 height).flatten.length (bytesPerRow bpp) = height / 8 := by
    have hsize : height / 8 * (128 / 8) * (bpp * 8) = bpp * 128 * (height / 8) := by ring
    rw [length_flatten_sheetTiles, hsize, bytesPerRow_eq, ceildiv_mul_self (by omega)]
  rw [flatten_sheetRows hbpp, hrows]
  refine List.ext_getElem (by rw [List.length_map, List.length_range]; omega) fun p hp hp' => ?_
  have hplace : (8 * ((16 * (p / 128 / 8) + p % 128 / 8) / (128 / 8)) + p / 128 % 8) * 128 +
      8 * ((16 * (p / 128 / 8) + p % 128 / 8) % (128 / 8)) + p % 128 % 8 = p := by omega
  rw [List.getElem_map, List.getElem_range, sheetTile_flatten_sheetTiles _ _ _ _ _ (by omega),
    decPix_encTile hlegal (by omega) (by omega), getD_gridTile _ _ _ _ (by omega) (by omega), hplace,
    List.getD_eq_getElem _ _ hp', Nat.mod_eq_of_lt (hgrid _ (List.getElem_mem hp'))]

end Sys2Proof.Machine

/-! The palette engine (43_palette.md): each pixel matches the least entry of its colour, each index gives its entry, and
a gray level is the nearest whole number to its quotient. -/

namespace Sys2Proof.Machine

/-! ### Palettes and colours of the wrong shape (R90, R180) -/

section shape

variable {params : Params} {pix : List Colour} {idx : List Nat} {pixch n : Nat} {pal : Palette}

theorem withinCap_eq_false_iff {cap : Option Nat} : withinCap cap n = false ↔ ∃ m, cap = some m ∧ m < n := by
  cases cap <;> simp [withinCap]

theorem all_colourShape_eq_false_iff {cs : List Colour} :
    cs.all (colourShape n) = false ↔ ∃ c ∈ cs, c.length ≠ n := by
  simp [colourShape]

/-- What keeps an operand from being a palette (R180): its channel count, an entry, or its size. -/
theorem paletteShape_eq_false_iff :
    paletteShape params pal = false ↔
      (pal.channels ≠ 1 ∧ pal.channels ≠ 3 ∧ pal.channels ≠ 4) ∨ (∃ c ∈ pal.entries, c.length ≠ pal.channels) ∨
        ∃ cap, params.palCap = some cap ∧ cap < pal.entries.length := by
  rw [paletteShape, Bool.and_eq_false_iff, Bool.and_eq_false_iff, all_colourShape_eq_false_iff,
    withinCap_eq_false_iff, or_assoc]
  simp only [Bool.or_eq_false_iff, beq_eq_false_iff_ne, and_assoc]

theorem matchShape_eq_false_of_palette (h : paletteShape params pal = false) :
    matchShape params pix pixch pal = false := by
  rw [matchShape, h, Bool.and_false]

theorem matchShape_eq_false_of_pixels (h : pixch = 0 ∨ ∃ c ∈ pix, c.length ≠ pixch) :
    matchShape params pix pixch pal = false := by
  obtain rfl | hpix := h
  · rfl
  · rw [matchShape, all_colourShape_eq_false_iff.2 hpix]
    simp only [Bool.and_false, Bool.false_and]

theorem applyShape_eq_false_of_palette (h : paletteShape params pal = false) : applyShape params idx pal = false := by
  rw [applyShape, h, Bool.and_false]

end shape

/-- Settles O52: each condition is part of the record's shape. -/
theorem paletteShapesAreRefused : Obligations.PaletteShapesAreRefused := by
  intro pix idx pixch pal s hready bad
  have hpal : bad → paletteShape s.params pal = false := paletteShape_eq_false_iff.2
  refine ⟨fun hops hbad => exec_of_refuse hready hops (ifShaped_eq_refuse ?_),
    fun hops hbad => exec_of_refuse hready hops (ifShaped_eq_refuse (applyShape_eq_false_of_palette (hpal hbad)))⟩
  obtain hbad | hpix := hbad
  · exact matchShape_eq_false_of_palette (hpal hbad)
  · exact matchShape_eq_false_of_pixels hpix

/-! ### MATCH with every colour in the palette (R182, R183) -/

section firstMatch

variable {entries : List Colour} {c : Colour}

/-- A colour of the palette has a first match: its least index. -/
theorem firstMatch_of_mem (h : c ∈ entries) : firstMatch entries c = some (entries.idxOf c) :=
  List.findIdx?_eq_some_of_exists ⟨c, h, beq_self_eq_true c⟩

/-- No entry before the first match is the colour (R183). -/
theorem getElem?_ne_of_lt_idxOf {t : Nat} (h : t < entries.idxOf c) : entries[t]? ≠ some c := by
  intro ht
  obtain ⟨hlt, rfl⟩ := List.getElem?_eq_some_iff.1 ht
  simpa using List.not_of_lt_findIdx h

/-- With every colour in the palette MATCH's scan finds the first match of each. -/
theorem matchFrom_of_mem {pix : List Colour} (h : ∀ c ∈ pix, c ∈ entries) (pos : Nat) :
    matchFrom entries pos pix = .ok (pix.map entries.idxOf) := by
  induction pix generalizing pos with
  | nil => rfl
  | cons c rest ih =>
    obtain ⟨hc, hrest⟩ := List.forall_mem_cons.1 h
    simp only [matchFrom, firstMatch_of_mem hc, ih hrest, List.map_cons]

end firstMatch

/-! ### The palette commands with their operands in range (R29, R89) -/

section exec

variable {pal : Palette} {s : State}

theorem exec_matchPix {pix : List Colour} (hready : Ready s) (hops : s.port.ops = .pixPal pix pal.channels pal)
    (hshape : matchShape s.params pix pal.channels pal = true) (hpix : pix ≠ [])
    (hmem : ∀ c ∈ pix, c ∈ pal.entries) :
    exec .matchPix s = .next (startedWith ((pix.map pal.entries.idxOf).map .index) s) :=
  have hok : commandResult .matchPix s.params (.pixPal pix pal.channels pal) =
      .ok ((pix.map pal.entries.idxOf).map .index) := by
    simp only [commandResult, matchResult, ifShaped_of_eq_true hshape, ne_eq, not_true_eq_false, if_false,
      matchFrom_of_mem hmem]
  exec_of_ok hready hops hok (by simpa using hpix)

theorem exec_applyPal {idx : List Nat} (hready : Ready s) (hops : s.port.ops = .idxPal idx pal)
    (hshape : applyShape s.params idx pal = true) (hidx : idx ≠ []) (hlt : ∀ i ∈ idx, i < pal.entries.length) :
    exec .applyPal s = .next (startedWith ((idx.map fun i => pal.entries.getD i []).map .colour) s) :=
  have hok : commandResult .applyPal s.params (.idxPal idx pal) =
      .ok ((idx.map fun i => pal.entries.getD i []).map .colour) := by
    simp only [commandResult, applyResult, ifShaped_of_eq_true hshape, applyFrom_of_lt hlt]
  exec_of_ok hready hops hok (by simpa using hidx)

theorem exec_graypal {bpp channels : Nat} {ch : ChCode} (hready : Ready s) (hops : s.port.ops = .empty)
    (hbpp : bppInRange bpp = true) (hch : channelsOf ch = some channels) :
    exec (.graypal bpp ch) s = .next (startedWith ((grayEntries channels bpp).map .colour) s) :=
  exec_of_ok hready hops (graypalResult_ok hbpp hch) (by simp [grayEntries])

end exec

/-- Settles O48: MATCH emits the first match of each pixel. -/
theorem matchEmitsLeastIndices : Obligations.MatchEmitsLeastIndices := by
  intro pix pal s hready hops hshape hpix hmem
  refine ⟨_, exec_matchPix hready hops hshape hpix hmem, List.length_map .., fun p hp => ?_⟩
  have hc : pix[p] ∈ pal.entries := hmem _ (List.getElem_mem hp)
  have hidx : (pix.map pal.entries.idxOf).getD p 0 = pal.entries.idxOf pix[p] := by simp [hp]
  rw [hidx, List.getElem?_eq_getElem hp]
  exact ⟨List.idxOf_lt_length_iff.2 hc, List.getElem?_idxOf hc, fun _ => getElem?_ne_of_lt_idxOf⟩

/-- Settles O50: APPLY's scan finds the entry of each index. -/
theorem applyLooksUpEveryIndex : Obligations.ApplyLooksUpEveryIndex := by
  intro idx pal s hready hops hshape hidx hlt
  rw [exec_applyPal hready hops hshape hidx hlt, List.map_map]
  rfl

/-! ### The gray levels (R188, R189, R192) -/

theorem bppInRange_iff {bpp : Nat} : bppInRange bpp = true ↔ 1 ≤ bpp ∧ bpp ≤ 8 := by
  simp [bppInRange]

section grayLevel

variable {bpp : Nat} (hbpp : 1 ≤ bpp) (hbpp' : bpp ≤ 8)
include hbpp hbpp'

/-- The divisor d = 2^bpp - 1 of the gray levels is odd and at most 255. -/
theorem two_pow_sub_one_odd_and_le : (2 ^ bpp - 1) % 2 = 1 ∧ 2 ^ bpp - 1 ≤ 255 := by
  interval_cases bpp <;> decide

/-- The level lies strictly within half of 255 t / d: a tie would make the odd d equal to an even number (R189). -/
theorem grayLevel_nearest (t : Nat) :
    2 * (2 ^ bpp - 1) * grayLevel bpp t < 510 * t + (2 ^ bpp - 1) ∧
      510 * t < 2 * (2 ^ bpp - 1) * grayLevel bpp t + (2 ^ bpp - 1) := by
  obtain ⟨hodd, -⟩ := two_pow_sub_one_odd_and_le hbpp hbpp'
  unfold grayLevel
  generalize 2 ^ bpp - 1 = d at hodd ⊢
  have hdiv := Nat.div_add_mod (510 * t + d) (2 * d)
  have hmod : (510 * t + d) % (2 * d) < 2 * d := Nat.mod_lt _ (by omega)
  rw [Nat.mul_assoc] at hdiv ⊢
  omega

theorem grayLevel_zero : grayLevel bpp 0 = 0 := by
  obtain ⟨hodd, -⟩ := two_pow_sub_one_odd_and_le hbpp hbpp'
  exact Nat.div_eq_of_lt (by omega)

theorem grayLevel_last : grayLevel bpp (2 ^ bpp - 1) = 255 := by
  obtain ⟨hodd, -⟩ := two_pow_sub_one_odd_and_le hbpp hbpp'
  exact Nat.div_eq_of_lt_le (by omega) (by omega)

/-- Neighbouring quotients are at least 255 / d ≥ 1 apart, so their nearest levels differ (R192). -/
theorem grayLevel_strictMono : StrictMono (grayLevel bpp) := by
  intro t u htu
  obtain ⟨-, hle⟩ := two_pow_sub_one_odd_and_le hbpp hbpp'
  obtain ⟨hbelow, -⟩ := grayLevel_nearest hbpp hbpp' t
  obtain ⟨-, habove⟩ := grayLevel_nearest hbpp hbpp' u
  by_contra hge
  have hmul := Nat.mul_le_mul_left (2 * (2 ^ bpp - 1)) (not_lt.1 hge)
  omega

theorem grayLevel_le {t : Nat} (ht : t < 2 ^ bpp) : grayLevel bpp t ≤ 255 := by
  rw [← grayLevel_last hbpp hbpp']
  exact (grayLevel_strictMono hbpp hbpp').monotone (Nat.le_sub_one_of_lt ht)

end grayLevel

/-- Settles O55: levels nearest to quotients at least 1 apart ascend. -/
theorem grayLevelsAscendFromBlackToWhite : Obligations.GrayLevelsAscendFromBlackToWhite :=
  fun _ hbpp hbpp' =>
    ⟨grayLevel_zero hbpp hbpp', grayLevel_last hbpp hbpp', fun _ _ htu _ => grayLevel_strictMono hbpp hbpp' htu⟩

/-- Settles O53: the entries are the gray colours of the levels, whatever the channel count. -/
theorem graypalEmitsNearestGrays : Obligations.GraypalEmitsNearestGrays := by
  intro bpp ch s hready hops hbpp hbpp' hch
  refine ⟨(List.range (2 ^ bpp)).map (grayLevel bpp), by simp, fun t ht => ?_, ?_⟩
  · rw [getD_map_range _ _ ht]
    exact ⟨grayLevel_le hbpp hbpp' ht, grayLevel_nearest hbpp hbpp' t⟩
  · have hexec {channels : Nat} :=
      exec_graypal (channels := channels) (ch := ch) hready hops (bppInRange_iff.2 ⟨hbpp, hbpp'⟩)
    simp only [grayEntries, List.map_map] at hexec ⊢
    cases ch with
    | reserved => exact absurd rfl hch
    | one | three | four => exact hexec rfl

/-! ### GRAYPAL's configuration (R188, R227) -/

/-- A ready block completes a command whose result is an error with that error. -/
theorem exec_of_err {i : Instr} {s : State} {e : CmdError} (hready : Ready s)
    (hres : commandResult i s.params s.port.ops = .err e) :
    exec i s = .next (failedWith e.code e.sub e.pos e.val s) := by
  rw [exec_of_ready i hready, hres, acceptOutcome_err]

theorem withBpp_of_not_inRange {bpp : Nat} (h : bpp < 1 ∨ 8 < bpp) (k : ExecResult) :
    withBpp bpp k = .err .bppRange :=
  if_neg (by rw [bppInRange_iff]; omega)

/-- Settles O54: the range of BPP is checked before CH, and both before the record. -/
theorem graypalReportsConfiguration : Obligations.GraypalReportsConfiguration := by
  intro bpp ch s hready
  refine ⟨fun hbad => exec_of_err (e := .bppRange) hready (withBpp_of_not_inRange hbad _), ?_⟩
  rintro hbpp hbpp' rfl
  exact exec_of_err (e := .channelsReserved) hready (withBpp_of_inRange (bppInRange_iff.2 ⟨hbpp, hbpp'⟩) _)

end Sys2Proof.Machine

/-! The geometry helper (44_geometry.md): the sheet height is eight pixel rows for each tile row begun, and the laws of
IMGHEIGHT are the laws of `ceildiv` (R200 to R202). -/

namespace Sys2Proof.Machine

/-! ### The laws of the height (R202) -/

section height

variable {bpp : Nat} (hbpp : 0 < bpp)
include hbpp

theorem bytesPerRow_pos : 0 < bytesPerRow bpp := by
  rw [bytesPerRow_eq]
  omega

/-- Eight rows for each full tile row. -/
theorem imgHeight_bytesPerRow_mul (k : Nat) : imgHeight (bytesPerRow bpp * k) bpp = 8 * k := by
  rw [imgHeight_eq hbpp, ceildiv_mul_self (bytesPerRow_pos hbpp)]

theorem imgHeight_mono : Monotone fun n => imgHeight n bpp := by
  intro n m hnm
  simp only [imgHeight_eq hbpp, ceildiv]
  exact Nat.mul_le_mul_left 8 (Nat.div_le_div_right (by omega))

theorem imgHeight_pos {n : Nat} (hn : 0 < n) : 0 < imgHeight n bpp := by
  rw [imgHeight_eq hbpp]
  exact Nat.mul_pos (by decide) (ceildiv_pos (bytesPerRow_pos hbpp) hn)

/-- A pixel row is 16 bytes for each bit of depth, so `h` pixel rows' bytes, `h` a whole number of tile rows, give back
`h` (R202 (b)). -/
theorem imgHeight_reround (n : Nat) : imgHeight (imgHeight n bpp * bpp * 16) bpp = imgHeight n bpp := by
  have hbytes : imgHeight n bpp * bpp * 16 = bytesPerRow bpp * ceildiv n (bytesPerRow bpp) := by
    rw [imgHeight_eq hbpp, bytesPerRow_eq]
    ring
  rw [hbytes, imgHeight_bytesPerRow_mul hbpp, imgHeight_eq hbpp]

/-- 128 bytes for each bit of depth are a tile row, so every pixel row counts as eight (R202 (c)). -/
theorem imgHeight_reround_tileRows (n : Nat) :
    imgHeight (imgHeight n bpp * bpp * 8 * 16) bpp = 8 * imgHeight n bpp := by
  have hbytes : imgHeight n bpp * bpp * 8 * 16 = bytesPerRow bpp * imgHeight n bpp := by
    rw [bytesPerRow_eq]
    ring
  rw [hbytes, imgHeight_bytesPerRow_mul hbpp]

end height

/-- Settles O57: with the height `8 * ceildiv n (bpp * 128)`, each re-rounded count is a whole number of tile rows. -/
theorem imgheightLaws : Obligations.ImgheightLaws := by
  intro bpp hbpp _
  refine ⟨fun n => ?multiple, fun n m hnm => imgHeight_mono hbpp hnm, imgHeight_reround hbpp, fun n hn => ?tileRows,
    fun k => ?fullRows⟩
  case multiple =>
    rw [imgHeight_eq hbpp, Nat.mul_mod_right]
  case tileRows =>
    have heq := imgHeight_reround_tileRows hbpp n
    have hpos := imgHeight_pos hbpp hn
    exact ⟨heq, by omega⟩
  case fullRows =>
    have hbytes : k * bpp * 128 = bytesPerRow bpp * k := by
      rw [bytesPerRow_eq]
      ring
    rw [hbytes, imgHeight_bytesPerRow_mul hbpp]

/-! ### The command (R200, R201) -/

theorem imgheightResult_of_withinCap {params : Params} {bpp n : Nat} (hbpp : bppInRange bpp = true)
    (hcap : withinCap params.maxBytes n = true) :
    imgheightResult params bpp (.numBytes n) = .ok [.nat (imgHeight n bpp)] :=
  (withBpp_of_inRange hbpp _).trans (ifShaped_of_eq_true hcap)

/-- Settles O56: the closed form of the height within the range of BPP, and outside it the error before the record is
looked at. -/
theorem imgheightEmitsTheSheetHeight : Obligations.ImgheightEmitsTheSheetHeight := by
  intro bpp n s hready
  refine ⟨fun hbpp hbpp' hops hcap => ?_, fun hbad =>
    exec_of_err (e := .bppRange) hready (withBpp_of_not_inRange hbad _)⟩
  have hexec := exec_of_ok (i := .imgheight bpp) hready hops
    (imgheightResult_of_withinCap (bppInRange_iff.2 ⟨hbpp, hbpp'⟩) hcap) (List.cons_ne_nil _ _)
  rwa [imgHeight_eq hbpp, bytesPerRow_eq] at hexec

end Sys2Proof.Machine

/-! The format registry (45_registry.md): a name finds the format of least code that has it, and a format's code finds its
name and its bit depths (R210 to R212). -/

namespace Sys2Proof.Machine

/-! ### The format a name names (R210, R214) -/

section lookup

variable {params : Params} {name : String}

/-- A name is known exactly when some format has it. -/
theorem isSome_lookupFormat_iff : (lookupFormat params name).isSome = true ↔ ∃ f, formatName params f = name := by
  have hall : ∀ f, f ∈ [Format.planar, Format.interwined, Format.gba] := by
    intro f
    cases f <;> decide
  simp only [lookupFormat, List.find?_isSome, hall, true_and, beq_iff_eq]

theorem lookupFormat_eq_none (hunknown : ∀ f, formatName params f ≠ name) : lookupFormat params name = none := by
  rw [← Option.not_isSome_iff_eq_none, isSome_lookupFormat_iff]
  exact fun ⟨f, hf⟩ => hunknown f hf

theorem lookupFormat_namePlanar : lookupFormat params params.namePlanar = some .planar :=
  List.find?_cons_of_pos (beq_self_eq_true params.namePlanar)

/-- The name of Interwined finds it unless Planar, of smaller code, has the same name (log 11). -/
theorem lookupFormat_nameInterwined (hplanar : params.nameInterwined ≠ params.namePlanar) :
    lookupFormat params params.nameInterwined = some .interwined := by
  simp [lookupFormat, formatName, hplanar.symm]

/-- The name of GBA finds it unless another format, all of smaller code, has the same name (log 11). -/
theorem lookupFormat_nameGba (hplanar : params.nameGba ≠ params.namePlanar)
    (hinterwined : params.nameGba ≠ params.nameInterwined) : lookupFormat params params.nameGba = some .gba := by
  simp [lookupFormat, formatName, hplanar.symm, hinterwined.symm]

end lookup

/-! ### The commands' results (R210 to R212, R227) -/

section result

variable {params : Params} {r : Record} {name : String}

theorem fmtlookupResult_of_known {f : Format} (hname : recordName r = some name)
    (hfind : lookupFormat params name = some f) :
    fmtlookupResult params r = ifShaped (nameShape r) (.ok [.format (formatCode f).toField]) := by
  simp only [fmtlookupResult, hname, hfind]

theorem fmtlookupResult_of_unknown (hname : recordName r = some name) (hfind : lookupFormat params name = none) :
    fmtlookupResult params r = .err .nameUnknown := by
  simp only [fmtlookupResult, hname, hfind]

end result

theorem withFormat_formatCode (f : Format) (k : Format → ExecResult) : withFormat (formatCode f) k = k f := by
  cases f <;> rfl

theorem fmtnameResult_reserved (params : Params) (r : Record) :
    fmtnameResult params .reserved r = .err .formatReserved := rfl

theorem bpplistResult_reserved (r : Record) : bpplistResult .reserved r = .err .formatReserved := rfl

theorem bppSet_ne_nil (f : Format) : bppSet f ≠ [] := by
  cases f <;> decide

/-! ### The commands (R210 to R212) -/

section exec

variable {s : State} (hready : Ready s)
include hready

theorem exec_fmtlookup {name : String} {f : Format} (hops : s.port.ops = .name name)
    (hfind : lookupFormat s.params name = some f) :
    exec .fmtlookup s = .next (startedWith [.format (formatCode f).toField] s) :=
  exec_of_ok hready hops (fmtlookupResult_of_known (r := .name name) rfl hfind) (List.cons_ne_nil _ _)

theorem exec_fmtname (hops : s.port.ops = .empty) (f : Format) :
    exec (.fmtname (formatCode f)) s = .next (startedWith [.name (formatName s.params f)] s) :=
  exec_of_ok hready hops (withFormat_formatCode f _) (List.cons_ne_nil _ _)

theorem exec_bpplist (hops : s.port.ops = .empty) (f : Format) :
    exec (.bpplist (formatCode f)) s = .next (startedWith ((bppSet f).map .nat) s) :=
  exec_of_ok hready hops (withFormat_formatCode f _) (by simpa using bppSet_ne_nil f)

end exec

/-- Settles O58: what the name finds decides between a code and an error, and only then a surplus field counts. -/
theorem fmtlookupFindsTheCode : Obligations.FmtlookupFindsTheCode := by
  intro name s hready
  refine ⟨fun hops => ⟨?planar, ?interwined, ?gba⟩, fun hops hplanar hinterwined hgba => ?unknown,
    fun hops hknown => ?surplus⟩
  case planar =>
    rintro rfl
    exact exec_fmtlookup hready hops lookupFormat_namePlanar
  case interwined =>
    rintro rfl hplanar
    exact exec_fmtlookup hready hops (lookupFormat_nameInterwined hplanar)
  case gba =>
    rintro rfl hplanar hinterwined
    exact exec_fmtlookup hready hops (lookupFormat_nameGba hplanar hinterwined)
  case unknown =>
    have hname : recordName s.port.ops = some name := by
      obtain hops | hops := hops <;> rw [hops] <;> rfl
    have hfind : lookupFormat s.params name = none := lookupFormat_eq_none fun
      | .planar => hplanar.symm
      | .interwined => hinterwined.symm
      | .gba => hgba.symm
    exact exec_of_err (e := .nameUnknown) hready (fmtlookupResult_of_unknown hname hfind)
  case surplus =>
    have hfind : (lookupFormat s.params name).isSome = true := by
      rw [isSome_lookupFormat_iff]
      obtain rfl | rfl | rfl := hknown
      · exact ⟨.planar, rfl⟩
      · exact ⟨.interwined, rfl⟩
      · exact ⟨.gba, rfl⟩
    exact exec_of_refuse hready hops (fmtlookupResult_of_foreign (r := .nameSurplus name) hfind rfl)

/-- Settles O59: a format's code finds the format, and FMT = 3 is reported before the record is looked at. -/
theorem fmtnameAndBpplistDescribeTheFormat : Obligations.FmtnameAndBpplistDescribeTheFormat := by
  intro s hready
  refine ⟨fun hops => ?_, exec_of_err (e := .formatReserved) hready (fmtnameResult_reserved _ _),
    exec_of_err (e := .formatReserved) hready (bpplistResult_reserved _)⟩
  have hname := exec_fmtname hready hops
  have hbpps := exec_bpplist hready hops
  exact ⟨hname .planar, hname .interwined, hname .gba, hbpps .planar, hbpps .interwined, hbpps .gba⟩

end Sys2Proof.Machine

/-! Exceptions (60_exceptions.md): a command that cannot complete OK reports the first check that fails, with the code and
sub-cause of R226; empty inputs pass every check and complete at once; a refusal leaves a mark that stays. -/

namespace Sys2Proof.Machine

/-! ### The refusal mark and the parameters (R8, R35, R233) -/

/-- What no step undoes: the parameters are not written and the refusal mark is not cleared. -/
def MarkAndParamsKept (s t : State) : Prop :=
  t.params = s.params ∧ (s.refused = true → t.refused = true)

theorem markAndParamsKept_engineStep (s : State) : MarkAndParamsKept s (engineStep s) := by
  obtain ⟨-, e, -, heq⟩ | ⟨-, e, e', rest, -, heq⟩ | ⟨-, heq⟩ := engineStep_cases s <;> rw [heq] <;> exact ⟨rfl, id⟩

theorem markAndParamsKept_takeElement (s : State) : MarkAndParamsKept s (takeElement s) := by
  obtain ⟨e, -, heq⟩ | ⟨-, heq⟩ := takeElement_cases s <;> rw [heq] <;> exact ⟨rfl, id⟩

theorem markAndParamsKept_refusedState (s : State) : MarkAndParamsKept s (refusedState s) := ⟨rfl, fun _ => rfl⟩

/-- Of the outcomes of acceptance only a refusal writes the mark, and it sets it. -/
theorem markAndParamsKept_acceptOutcome (r : ExecResult) (s : State) : MarkAndParamsKept s (acceptOutcome r s) := by
  obtain ⟨-, heq⟩ | ⟨e, -, heq⟩ | ⟨-, heq⟩ | ⟨es, -, -, heq⟩ := acceptOutcome_cases r s <;> rw [heq]
  · exact markAndParamsKept_refusedState s
  all_goals exact ⟨rfl, id⟩

theorem markAndParamsKept_runPresented {s t : State} (h : runPresented s = .next t) : MarkAndParamsKept s t := by
  cases hdec : decode s.port.word with
  | ok i =>
    obtain ⟨-, rfl⟩ := (exec_next_iff i s t).1 (runPresented_of_ok hdec ▸ h)
    exact markAndParamsKept_acceptOutcome _ s
  | error e =>
    obtain ⟨-, rfl⟩ := (refuseWord_next_iff s t).1 (runPresented_of_error hdec ▸ h)
    exact markAndParamsKept_refusedState s

/-- Settles O16, by the cases of a step: the host's script and port, which a move also writes, are neither the mark nor
the parameters. -/
theorem refusalMarkAndParametersPersist : Obligations.RefusalMarkAndParametersPersist := by
  intro s t hstep
  obtain ⟨-, rfl⟩ | ⟨m, rest, -, hmove⟩ := step_next_cases hstep
  · exact markAndParamsKept_engineStep s
  · obtain ⟨-, rfl⟩ | ⟨r, -, hrun⟩ | ⟨-, rfl⟩ | ⟨-, rfl⟩ | ⟨-, rfl⟩ | ⟨-, -, rfl⟩ := hmove
    · exact markAndParamsKept_engineStep (dropMove rest s)
    · exact markAndParamsKept_runPresented (s := presentRequest r (dropMove rest s)) hrun
    · exact ⟨rfl, id⟩
    · exact markAndParamsKept_takeElement (dropMove rest s)
    · exact ⟨rfl, id⟩
    · exact ⟨rfl, id⟩

/-! ### The codes and sub-causes of a command (R226) -/

/-- Settles O19, by the four outcomes of acceptance: every error is in the command's row, and so is OK. -/
theorem commandsEndOnlyAsTheTableSays : Obligations.CommandsEndOnlyAsTheTableSays := by
  intro i s t h
  obtain ⟨-, rfl⟩ := (exec_next_iff i s t).1 h
  obtain ⟨-, heq⟩ | ⟨e, he, heq⟩ | ⟨-, heq⟩ | ⟨es, -, -, heq⟩ :=
    acceptOutcome_cases (commandResult i s.params s.port.ops) s <;> rw [heq]
  · exact .inl rfl
  · exact .inr (.inr ⟨(e.code, e.sub), commandResult_errors i _ _ e he, rfl⟩)
  · exact .inr (.inr ⟨(codeOk, 0#4), ok_mem_allowedResults i, rfl⟩)
  · exact .inr (.inl rfl)

/-! ### Illegal configurations (R221, R222, R227) -/

theorem checkCfg_reserved (bpp : Nat) : checkCfg .reserved bpp = .error .formatReserved := rfl

theorem checkCfg_of_not_inRange {fmt : FmtCode} {bpp : Nat} (hfmt : fmt ≠ .reserved) (hbpp : bpp < 1 ∨ 8 < bpp) :
    checkCfg fmt bpp = .error .bppRange := by
  have hrange : ¬ bppInRange bpp = true := by rw [bppInRange_iff]; omega
  cases fmt with
  | reserved => exact absurd rfl hfmt
  | planar | interwined | gba => exact if_neg hrange

theorem checkCfg_gba_of_unsupported {bpp : Nat} (hlow : 1 ≤ bpp) (hhigh : bpp ≤ 8) (hne4 : bpp ≠ 4)
    (hne8 : bpp ≠ 8) : checkCfg .gba bpp = .error .pairUnsupported := by
  have hpair : ¬ legalPair .gba bpp = true := by rw [legalPair_gba_iff]; omega
  exact (if_pos (bppInRange_iff.2 ⟨hlow, hhigh⟩)).trans (if_neg hpair)

theorem withConfig_of_error {fmt : FmtCode} {bpp : Nat} {e : CmdError} (h : checkCfg fmt bpp = .error e)
    (k : Format → ExecResult) : withConfig fmt bpp k = .err e := by
  simp [withConfig, h]

/-- The nine commands with the fields FMT and BPP (R222). -/
def formatCommands (fmt : FmtCode) (bpp : Nat) : List Instr :=
  [.pixdec fmt bpp, .pixenc fmt bpp, .rowdec fmt bpp, .rowenc fmt bpp, .tiledec fmt bpp, .tileenc fmt bpp,
    .sheetdec fmt bpp, .sheetenc fmt bpp, .cfgcheck fmt bpp]

/-- The configuration check is the first thing each of the nine commands does, before it looks at its record (R227). -/
theorem commandResult_of_checkCfg_error {fmt : FmtCode} {bpp : Nat} {i : Instr} {e : CmdError}
    (hi : i ∈ formatCommands fmt bpp) (h : checkCfg fmt bpp = .error e) (params : Params) (r : Record) :
    commandResult i params r = .err e := by
  simp only [formatCommands, List.mem_cons, List.not_mem_nil, or_false] at hi
  obtain rfl | rfl | rfl | rfl | rfl | rfl | rfl | rfl | rfl := hi <;> exact withConfig_of_error h _

/-- Settles O22: the record plays no part, and CheckCfg looks at FMT, then the range of BPP, then the pair. -/
theorem illegalConfigurationIsReported : Obligations.IllegalConfigurationIsReported := by
  intro s fmt bpp hready i hi
  have hreport (e : CmdError) (h : checkCfg fmt bpp = .error e) :
      exec i s = .next (failedWith e.code e.sub e.pos e.val s) :=
    exec_of_err hready (commandResult_of_checkCfg_error hi h _ _)
  refine ⟨?reserved, fun hfmt hbpp => hreport .bppRange (checkCfg_of_not_inRange hfmt hbpp), ?unsupported⟩
  case reserved =>
    rintro rfl
    exact hreport .formatReserved (checkCfg_reserved bpp)
  case unsupported =>
    rintro rfl hlow hhigh hne4 hne8
    exact hreport .pairUnsupported (checkCfg_gba_of_unsupported hlow hhigh hne4 hne8)

/-! ### Dimensions (R165, R223, R227) -/

section dimensions

variable {grid : List Nat} {width height : Nat}

theorem checkDims_of_width (hwidth : width % 8 ≠ 0) : checkDims grid width height = some .widthNotMultiple :=
  if_pos hwidth

theorem checkDims_of_height (hwidth : width % 8 = 0) (hheight : height % 8 ≠ 0) :
    checkDims grid width height = some .heightNotMultiple := by
  simp [checkDims, tileSide, hwidth, hheight]

theorem checkDims_of_length (hwidth : width % 8 = 0) (hheight : height % 8 = 0)
    (hlen : grid.length ≠ width * height) : checkDims grid width height = some .gridLength := by
  simp [checkDims, tileSide, hwidth, hheight, hlen]

variable {params : Params} {f : Format} {bpp : Nat} (hlegal : legalPair f bpp = true)
  (hcap : withinCap params.maxElems grid.length = true)
include hlegal hcap

theorem sheetencResult_of_checkDims_some {e : CmdError} (h : checkDims grid width height = some e) :
    sheetencResult params (formatCode f) bpp (.grid grid width height) = .err e := by
  rw [sheetencResult, withConfig_of_legal hlegal]
  simp only [ifShaped_of_eq_true hcap, h]

theorem sheetencResult_of_checkDims_none (h : checkDims grid width height = none) :
    sheetencResult params (formatCode f) bpp (.grid grid width height) =
      .ok ((sheetTiles f bpp grid width height).map .bytes) := by
  rw [sheetencResult, withConfig_of_legal hlegal]
  simp only [ifShaped_of_eq_true hcap, h]

end dimensions

/-- Settles O44: each clause is the first dimension check that fails. -/
theorem sheetencReportsDimensions : Obligations.SheetencReportsDimensions := by
  intro f bpp width height grid s hready hops hlegal hcap
  have hreport (e : CmdError) (h : checkDims grid width height = some e) :
      exec (.sheetenc (formatCode f) bpp) s = .next (failedWith e.code e.sub e.pos e.val s) :=
    exec_of_err hready (hops ▸ sheetencResult_of_checkDims_some hlegal hcap h)
  exact ⟨fun hwidth => hreport .widthNotMultiple (checkDims_of_width hwidth),
    fun hwidth hheight => hreport .heightNotMultiple (checkDims_of_height hwidth hheight),
    fun hwidth hheight hlen => hreport .gridLength (checkDims_of_length hwidth hheight hlen)⟩

/-! ### Empty inputs (R213, R234) -/

/-- A ready block completes a command with nothing to emit at once. -/
theorem exec_of_ok_nil {i : Instr} {s : State} {r : Record} (hready : Ready s) (hops : s.port.ops = r)
    (hres : commandResult i s.params r = .ok []) : exec i s = .next (completedEmpty s) := by
  rw [exec_of_ready i hready, hops, hres, acceptOutcome_ok_nil]

theorem withinCap_zero (cap : Option Nat) : withinCap cap 0 = true := by
  cases cap <;> simp [withinCap]

section empty

variable {params : Params} {f : Format} {bpp : Nat} {pal : Palette}

theorem sheetRows_nil (hbpp : 0 < bpp) : sheetRows f bpp [] = [] := by
  rw [← List.length_eq_zero_iff, length_sheetRows]
  simpa using ceildiv_mul_self (bytesPerRow_pos hbpp) 0

theorem sheetTiles_of_zero {width height : Nat} (h : width = 0 ∨ height = 0) (grid : List Nat) :
    sheetTiles f bpp grid width height = [] := by
  rw [sheetTiles_eq_map]
  obtain rfl | rfl := h <;> simp

theorem sheetdecResult_nil (hlegal : legalPair f bpp = true) :
    sheetdecResult params (formatCode f) bpp (.bytesIn []) = .ok [] := by
  rw [sheetdecResult, withConfig_of_legal hlegal]
  simp only [sheetRows_nil (pos_of_legalPair hlegal)]
  exact ifShaped_of_eq_true (withinCap_zero _)

theorem sheetencResult_nil (hlegal : legalPair f bpp = true) {width height : Nat} (hwidth : width % 8 = 0)
    (hheight : height % 8 = 0) (hzero : width = 0 ∨ height = 0) :
    sheetencResult params (formatCode f) bpp (.grid [] width height) = .ok [] := by
  have hlen : ([] : List Nat).length = width * height := (Nat.mul_eq_zero.2 hzero).symm
  rw [sheetencResult_of_checkDims_none hlegal (withinCap_zero _) (checkDims_eq_none hwidth hheight hlen),
    sheetTiles_of_zero hzero, List.map_nil]

/-- A palette has 1, 3 or 4 channels, so no pixels of as many channels are well-formed (R89, R180). -/
theorem matchShape_nil (hpal : paletteShape params pal = true) : matchShape params [] pal.channels pal = true := by
  have hpos : 1 ≤ pal.channels := by
    simp only [paletteShape, Bool.and_eq_true, Bool.or_eq_true, beq_iff_eq] at hpal
    omega
  simp [matchShape, hpal, hpos, withinCap_zero]

theorem matchResult_nil (hpal : paletteShape params pal = true) :
    matchResult params (.pixPal [] pal.channels pal) = .ok [] := by
  rw [matchResult, ifShaped_of_eq_true (matchShape_nil hpal), if_neg (not_not.2 rfl)]
  rfl

theorem applyResult_nil (hpal : paletteShape params pal = true) : applyResult params (.idxPal [] pal) = .ok [] :=
  ifShaped_of_eq_true (by rw [applyShape, hpal, List.length_nil, withinCap_zero]; rfl)

end empty

/-- Settles O45: an empty input passes every check of its command and gives an empty output. -/
theorem emptyInputsCompleteAtOnce : Obligations.EmptyInputsCompleteAtOnce := by
  intro f bpp s hready hlegal
  exact ⟨fun hops => exec_of_ok_nil hready hops (sheetdecResult_nil hlegal),
    fun _ _ hops hwidth hheight hzero => exec_of_ok_nil hready hops (sheetencResult_nil hlegal hwidth hheight hzero),
    fun _ hops hpal => exec_of_ok_nil hready hops (matchResult_nil hpal),
    fun _ hops hpal => exec_of_ok_nil hready hops (applyResult_nil hpal),
    fun hops => exec_of_ok_nil hready hops (withConfig_of_legal hlegal _)⟩

/-! ### The first colour without a match (R182, R185, R224) -/

theorem firstMatch_of_not_mem {entries : List Colour} {c : Colour} (h : c ∉ entries) : firstMatch entries c = none := by
  rw [firstMatch, List.findIdx?_eq_none_iff]
  exact fun e he => beq_eq_false_iff_ne.2 fun heq => h (heq ▸ he)

/-- MATCH's scan stops at the first colour that is not in the palette. -/
theorem matchFrom_of_first_not_mem {entries : List Colour} {c : Colour} {pix : List Colour} {p : Nat}
    (hp : pix[p]? = some c) (hc : c ∉ entries) (hbefore : ∀ c' ∈ pix.take p, c' ∈ entries) (pos : Nat) :
    matchFrom entries pos pix = .error (.noMatch (pos + p)) := by
  induction pix generalizing pos p with
  | nil => simp at hp
  | cons c₀ rest ih =>
    cases p with
    | zero =>
      obtain rfl : c₀ = c := by simpa using hp
      simp only [matchFrom, firstMatch_of_not_mem hc, Nat.add_zero]
    | succ p =>
      obtain ⟨hc₀, hrest⟩ := List.forall_mem_cons.1 hbefore
      simp only [matchFrom, firstMatch_of_mem hc₀, ih hp hrest (pos + 1), Nat.add_right_comm pos 1 p, Nat.add_assoc]

/-- Settles O49: the channel check comes before the scan, which stops at the first colour without a match. -/
theorem matchReportsTheFirstMismatch : Obligations.MatchReportsTheFirstMismatch := by
  intro pix pixch pal s hready hops hshape
  have hreport (e : CmdError) (h : matchResult s.params (.pixPal pix pixch pal) = .err e) :
      exec .matchPix s = .next (failedWith e.code e.sub e.pos e.val s) :=
    exec_of_err hready (hops ▸ h)
  refine ⟨fun hne => hreport .channelMismatch ?_, fun heq p c hp hc hbefore => hreport (.noMatch p) ?_⟩
  · rw [matchResult, ifShaped_of_eq_true hshape, if_pos hne]
  · rw [matchResult, ifShaped_of_eq_true hshape, if_neg (not_not.2 heq),
      matchFrom_of_first_not_mem hp hc hbefore, Nat.zero_add]

/-! ### The first index out of range (R185, R186, R225) -/

/-- APPLY's scan stops at the first index at or above the palette size. -/
theorem applyFrom_of_first_ge {entries : List Colour} {idx : List Nat} {p v : Nat} (hp : idx[p]? = some v)
    (hv : entries.length ≤ v) (hbefore : ∀ i ∈ idx.take p, i < entries.length) (pos : Nat) :
    applyFrom entries pos idx = .error (.indexOutOfRange (pos + p) v) := by
  induction idx generalizing pos p with
  | nil => simp at hp
  | cons i rest ih =>
    cases p with
    | zero =>
      obtain rfl : i = v := by simpa using hp
      simp only [applyFrom, List.getElem?_eq_none hv, Nat.add_zero]
    | succ p =>
      obtain ⟨hi, hrest⟩ := List.forall_mem_cons.1 hbefore
      simp only [applyFrom, List.getElem?_eq_getElem hi, ih hp hrest (pos + 1), Nat.add_right_comm pos 1 p,
        Nat.add_assoc]

/-- Settles O51: the scan stops at the first index out of range, with its position and value. -/
theorem applyReportsTheFirstIndexOutOfRange : Obligations.ApplyReportsTheFirstIndexOutOfRange := by
  intro idx pal p v s hready hops hshape hp hv hbefore
  refine exec_of_err (e := .indexOutOfRange p v) hready ?_
  rw [hops, commandResult, applyResult, ifShaped_of_eq_true hshape, applyFrom_of_first_ge hp hv hbefore, Nat.zero_add]

end Sys2Proof.Machine

/-! Reset and hazards (70_reset_and_hazards.md): reset at any time, what has no move while RUNNING, the host's reads,
and the run of a command left to itself. -/

namespace Sys2Proof.Machine

/-! ### A running command left to itself (R31, R32, R261) -/

/-- The state after the first `k` pending elements have gone to OUT. -/
def emitFirst (k : Nat) (s : State) : State :=
  { s with out := s.out ++ s.pending.take k, pending := s.pending.drop k, cur := s.cur + k }

theorem emitFirst_zero (s : State) : emitFirst 0 s = s := by
  simp [emitFirst]

/-- Emitting `k + 1` elements is emitting the head and then `k` more. -/
theorem emitFirst_succ {s : State} {e : Element} {rest : List Element} (hl : s.pending = e :: rest) (k : Nat) :
    emitFirst (k + 1) s = emitFirst k (emitElement e rest s) := by
  simp [emitFirst, emitElement, hl, Nat.add_assoc, Nat.add_comm 1]

section run

variable {s : State}

/-- With more to come a step emits the head. -/
theorem step_emits {e e' : Element} {rest : List Element} (hp : s.phase = .running) (hs : s.script = [])
    (hl : s.pending = e :: e' :: rest) : step s = .next (emitElement e (e' :: rest) s) := by
  rw [step_of_nil hs, engineStep_of_pending hp hl, if_neg (List.cons_ne_nil e' rest)]

/-- With one element left a step emits it and completes OK. -/
theorem step_completes {e : Element} (hp : s.phase = .running) (hs : s.script = []) (hl : s.pending = [e]) :
    step s = .next (completeCommand codeOk 0#4 0 0 (emitElement e [] s)) := by
  rw [step_of_nil hs, engineStep_of_pending hp hl, if_pos rfl]

/-- Fewer steps than there are elements pending emit one element each and do not complete the command. -/
theorem runSteps_of_lt_pending {k : Nat} (hp : s.phase = .running) (hs : s.script = []) (hk : k < s.pending.length) :
    runSteps k s = .next (emitFirst k s) := by
  induction k generalizing s with
  | zero => rw [runSteps_zero, emitFirst_zero]
  | succ k ih =>
    match hl : s.pending with
    | [] | [_] => simp [hl] at hk
    | e :: e' :: rest =>
      rw [hl] at hk
      rw [runSteps_succ k (step_emits hp hs hl), emitFirst_succ hl]
      exact ih (s := emitElement e (e' :: rest) s) hp hs (Nat.lt_of_succ_lt_succ hk)

/-- As many steps as there are elements pending emit them all and complete the command OK. -/
theorem runSteps_length_pending {e : Element} {rest : List Element} (hp : s.phase = .running) (hs : s.script = [])
    (hl : s.pending = e :: rest) :
    runSteps s.pending.length s = .next (completeCommand codeOk 0#4 0 0 (emitFirst s.pending.length s)) := by
  induction rest generalizing s e with
  | nil =>
    rw [hl, List.length_singleton, runSteps_succ 0 (step_completes hp hs hl), runSteps_zero, emitFirst_succ hl,
      emitFirst_zero]
  | cons e' rest ih =>
    rw [hl, List.length_cons, runSteps_succ _ (step_emits hp hs hl), emitFirst_succ hl]
    exact ih (s := emitElement e (e' :: rest) s) hp hs rfl

end run

/-- Settles O11: each step moves one element from PENDING to OUT, and the last completes the command. -/
theorem runningCommandCompletes : Obligations.RunningCommandCompletes := by
  intro s hp hs hne
  obtain ⟨e, rest, hl⟩ := List.exists_cons_of_ne_nil hne
  refine ⟨(runSteps_length_pending hp hs hl).trans ?_, fun k hk => runSteps_of_lt_pending hp hs hk⟩
  rw [emitFirst, List.take_length]
  rfl

/-! ### What has no move while RUNNING (R254, R256) -/

/-- While RUNNING no command is accepted (R256). -/
theorem exec_of_running (i : Instr) {s : State} (h : s.phase = .running) : exec i s = .fault .issueWhileRunning := by
  rw [exec_eq_accept, accept_of_running _ h]

/-- While RUNNING no transaction has a move, whether its word decodes or is reserved (R88, R256). -/
theorem runPresented_of_running {s : State} (h : s.phase = .running) : runPresented s = .fault .issueWhileRunning := by
  cases hdec : decode s.port.word with
  | ok i => rw [runPresented_of_ok hdec, exec_of_running i h]
  | error e => rw [runPresented_of_error hdec, refuseWord_of_running h]

/-- Settles O9: presenting the transaction leaves the block RUNNING, where nothing presented has a move. -/
theorem issueWhileRunningHasNoMove : Obligations.IssueWhileRunningHasNoMove := by
  intro s hp
  refine ⟨fun i => exec_of_running i hp, fun r rest hscript => ?_⟩
  rw [step_of_cons hscript]
  exact runPresented_of_running (s := presentRequest r (dropMove rest s)) hp

theorem modifyInput_of_running {s : State} (h : s.phase = .running) :
    modifyInput s = .fault .inputModifiedWhileRunning := by
  simp [modifyInput, h]

theorem modifyInput_of_ready {s : State} (h : Ready s) : modifyInput s = .next s := by
  unfold modifyInput
  cases hp : s.phase with
  | running => exact absurd hp h
  | idle | done => rfl

/-- Settles O13: the phase decides whether the change of a buffer has a move. -/
theorem inputChangeWhileRunningHasNoMove : Obligations.InputChangeWhileRunningHasNoMove := by
  intro s rest hscript
  rw [step_of_cons hscript]
  exact ⟨fun hp => modifyInput_of_running (s := dropMove rest s) hp,
    fun hready => modifyInput_of_ready (s := dropMove rest s) hready⟩

/-! ### Reset and the host's reads (R250, R253, R257) -/

/-- Settles O6: the values of `resetBlock` are those of R35, and CMD gets the value it has after reset. -/
theorem hostResetRestoresTheResetState : Obligations.HostResetRestoresTheResetState := by
  intro s rest hscript
  exact ⟨State.reset.cmd, step_of_cons hscript⟩

/-- The host gets the element of OUT that is next for it. -/
theorem takeElement_of_some {s : State} {e : Element} (h : s.out[s.taken]? = some e) :
    takeElement s = { s with taken := s.taken + 1, seen := s.seen ++ [.element e] } := by
  simp [takeElement, h]

/-- Where the host has read all of OUT it gets nothing. -/
theorem takeElement_of_length_le {s : State} (h : s.out.length ≤ s.taken) : takeElement s = s := by
  simp [takeElement, List.getElem?_eq_none h]

/-- Settles O12: a read of the status records it with the code of the phase, a read of OUT the next element if any. -/
theorem hostReadsLeaveTheBlockAlone : Obligations.HostReadsLeaveTheBlockAlone := by
  intro s rest
  refine ⟨fun hscript => step_of_cons hscript, fun hscript => ?_⟩
  rw [step_of_cons hscript]
  exact ⟨fun e he => congrArg _ (takeElement_of_some (s := dropMove rest s) he),
    fun hle => congrArg _ (takeElement_of_length_le (s := dropMove rest s) hle)⟩

end Sys2Proof.Machine
